-- ==== Sys2Proof/Word.lean ====
section
/-! DEFINITION. The widths of the block (00_scope.md rules R7, R9) and its two command ports (30_encoding.md rule R70). -/

namespace Sys2Proof

/-- A one-bit value: a buffer selector, the flag, a mode (rule R9). -/
abbrev Bit := BitVec 1

/-- A byte of a receive buffer or of a frame (rule R50). -/
abbrev Byte := BitVec 8

/-- A 16-bit value: the CRC, a length, a response word (rule R7, `CRC_W`, `LEN_W`, `RSP_W`). -/
abbrev Half := BitVec 16

/-- A 32-bit command word (rule R7, `CMD_W`; rule R71). -/
abbrev CommandWord := BitVec 32

/-- The two command ports (rule R70): the P-port of the receiver and the notification, the C-port of the polling consumer. -/
inductive Port where
  | producer
  | consumer
deriving DecidableEq, Repr

/-- The other port. -/
def Port.other : Port → Port
  | .producer => .consumer
  | .consumer => .producer

end Sys2Proof
end

