-- ==== Sys2Proof/Syntax.lean ====
section
/-! DEFINITION. The fifteen commands (30_encoding.md rule R74; spec/opcode_table.json), one constructor a row, operands at the widths of rule R73. -/

namespace Sys2Proof

/-- The commands of rule R74. An operand has exactly the width its field has in the word, so every term is encodable. -/
inductive Instr where
  /-- `TST` (rule R131) -/
  | tst
  /-- `CAPB` (rule R132) -/
  | capb
  /-- `CAPL` (rule R133) -/
  | capl
  /-- `CLRR` (rule R134) -/
  | clrr
  /-- `CLRL` (rule R135) -/
  | clrl
  /-- `RDB idx` (rule R136) -/
  | rdb (idx : BitVec 8)
  /-- `RDL` (rule R137) -/
  | rdl
  /-- `CRCI` (rule R101) -/
  | crci
  /-- `CRCB data` (rule R102) -/
  | crcb (data : BitVec 8)
  /-- `CRCM idx` (rule R103) -/
  | crcm (idx : BitVec 8)
  /-- `CRCR` (rule R104) -/
  | crcr
  /-- `CRCK idx` (rule R105) -/
  | crck (idx : BitVec 8)
  /-- `CFGM mode` (rule R106) -/
  | cfgm (mode : BitVec 1)
  /-- `RXW idx, data` (rule R121) -/
  | rxw (idx : BitVec 8) (data : BitVec 8)
  /-- `RXC size` (rule R122) -/
  | rxc (size : BitVec 16)
deriving DecidableEq, Repr

end Sys2Proof
end

