-- ==== Sys2Proof/Decode.lean ====
section
/-! DEFINITION. Decoding and encoding of command words (30_encoding.md rules R71 to R77, R79, R88). -/

namespace Sys2Proof

/-! ## Fields of the word (rule R71) -/

/-- `op = w[31:24]`. -/
def wordOp (w : CommandWord) : BitVec 8 := w.extractLsb' 24 8

/-- `idx = w[23:16]`. -/
def wordIdx (w : CommandWord) : BitVec 8 := w.extractLsb' 16 8

/-- `imm = w[15:0]`, the operand `size`. -/
def wordImm (w : CommandWord) : BitVec 16 := w.extractLsb' 0 16

/-- `imm[7:0] = w[7:0]`, the operand `data`. -/
def wordData (w : CommandWord) : BitVec 8 := w.extractLsb' 0 8

/-- `imm[0] = w[0]`, the operand `mode`. -/
def wordMode (w : CommandWord) : BitVec 1 := w.extractLsb' 0 1

/-- `op[7]` is the port: 0 for the C-port, 1 for the P-port (rule R71). -/
def opPort (op : BitVec 8) : Port := if op.getLsbD 7 then .producer else .consumer

/-! ## Formats (rule R72) -/

/-- The six formats. -/
inductive Format where
  | N | X | D | XD | I | M
deriving DecidableEq, Repr

/-- The mask of fixed bits of a format: the opcode and the bits that must be 0. -/
def Format.mask : Format → CommandWord
  | .N => 0xFFFFFFFF
  | .X => 0xFF00FFFF
  | .D => 0xFFFFFF00
  | .XD => 0xFF00FF00
  | .I => 0xFFFF0000
  | .M => 0xFFFFFFFE

/-! ## The opcode map (rule R74) -/

/-- One row of rule R74: the opcode, the format, and the command that a word of the row is. -/
structure OpcodeRow where
  op : BitVec 8
  format : Format
  build : CommandWord → Instr

/-- "Match is the word with all operand fields zero". -/
def OpcodeRow.matchWord (r : OpcodeRow) : CommandWord := r.op ++ (0 : BitVec 24)

/-- The rows of rule R74, operands taken as rule R73 says. -/
def opcodeRows : List OpcodeRow := [
  { op := 0x01, format := .N, build := fun _ => .tst },
  { op := 0x02, format := .N, build := fun _ => .capb },
  { op := 0x03, format := .N, build := fun _ => .capl },
  { op := 0x04, format := .N, build := fun _ => .clrr },
  { op := 0x05, format := .N, build := fun _ => .clrl },
  { op := 0x06, format := .X, build := fun w => .rdb (wordIdx w) },
  { op := 0x07, format := .N, build := fun _ => .rdl },
  { op := 0x10, format := .N, build := fun _ => .crci },
  { op := 0x11, format := .D, build := fun w => .crcb (wordData w) },
  { op := 0x12, format := .X, build := fun w => .crcm (wordIdx w) },
  { op := 0x13, format := .N, build := fun _ => .crcr },
  { op := 0x14, format := .X, build := fun w => .crck (wordIdx w) },
  { op := 0x15, format := .M, build := fun w => .cfgm (wordMode w) },
  { op := 0x80, format := .XD, build := fun w => .rxw (wordIdx w) (wordData w) },
  { op := 0x81, format := .I, build := fun w => .rxc (wordImm w) }]

/-- Why a word presented on a port is illegal (rules R75, R76). All three raise the one fault `ILLEGAL`. -/
inductive Illegal where
  /-- The `op` value is none of the fifteen (rule R75). -/
  | unknownOp
  /-- A command of the other port (rule R76). -/
  | wrongPort
  /-- A bit that the format says must be 0 is 1 (rule R75). -/
  | reservedBits
deriving DecidableEq, Repr

/-- The decoder, by the procedure of rule R88: the opcode, then the port, then the must-be-zero bits, then the operands. -/
def decode (p : Port) (w : CommandWord) : Except Illegal Instr :=
  match opcodeRows.find? (fun r => r.op == wordOp w) with
  | none => .error .unknownOp
  | some r =>
    if opPort r.op ≠ p then .error .wrongPort
    else if w &&& r.format.mask ≠ r.matchWord then .error .reservedBits
    else .ok (r.build w)

/-! ## The encoder (rule R79) -/

/-- The opcode of a command (rule R74). -/
def Instr.op : Instr → BitVec 8
  | .tst => 0x01
  | .capb => 0x02
  | .capl => 0x03
  | .clrr => 0x04
  | .clrl => 0x05
  | .rdb _ => 0x06
  | .rdl => 0x07
  | .crci => 0x10
  | .crcb _ => 0x11
  | .crcm _ => 0x12
  | .crcr => 0x13
  | .crck _ => 0x14
  | .cfgm _ => 0x15
  | .rxw _ _ => 0x80
  | .rxc _ => 0x81

/-- The format of a command (rule R74). -/
def Instr.format : Instr → Format
  | .tst => .N
  | .capb => .N
  | .capl => .N
  | .clrr => .N
  | .clrl => .N
  | .rdb _ => .X
  | .rdl => .N
  | .crci => .N
  | .crcb _ => .D
  | .crcm _ => .X
  | .crcr => .N
  | .crck _ => .X
  | .cfgm _ => .M
  | .rxw _ _ => .XD
  | .rxc _ => .I

/-- The `idx` field of a command's word, 0 where its format has none. -/
def Instr.idxField : Instr → BitVec 8
  | .rdb idx => idx
  | .crcm idx => idx
  | .crck idx => idx
  | .rxw idx _ => idx
  | .tst => 0
  | .capb => 0
  | .capl => 0
  | .clrr => 0
  | .clrl => 0
  | .rdl => 0
  | .crci => 0
  | .crcb _ => 0
  | .crcr => 0
  | .cfgm _ => 0
  | .rxc _ => 0

/-- The `imm` field of a command's word: `data`, `size` or `mode`, 0 where its format has none. -/
def Instr.immField : Instr → BitVec 16
  | .crcb data => data.setWidth 16
  | .cfgm mode => mode.setWidth 16
  | .rxw _ data => data.setWidth 16
  | .rxc size => size
  | .tst => 0
  | .capb => 0
  | .capl => 0
  | .clrr => 0
  | .clrl => 0
  | .rdb _ => 0
  | .rdl => 0
  | .crci => 0
  | .crcm _ => 0
  | .crcr => 0
  | .crck _ => 0

/-- `w = (op << 24) or (idx << 16) or imm` (rule R79). -/
def encode (i : Instr) : CommandWord := i.op ++ i.idxField ++ i.immField

/-- The port a command belongs to (rule R74): bit 7 of its opcode. -/
def Instr.port (i : Instr) : Port := opPort i.op

/-! ## A word of the opcode table -/

/-- The port whose command a word would be: `w[31]` (rule R71). -/
def wordPort (w : CommandWord) : Port := opPort (wordOp w)

/-- A table word as the 32-bit command word it is: bits at or above `nbits` are 0. -/
def tableWord (nbits w : Nat) : CommandWord := BitVec.ofNat 32 (w % 2 ^ nbits)

/-- The command the decoder reads from a word of spec/opcode_table.json, presented on the port its `op[7]` names (log entry 9). -/
def decodeTableWord (nbits w : Nat) : Option Instr :=
  match decode (wordPort (tableWord nbits w)) (tableWord nbits w) with
  | .ok i => some i
  | .error _ => none

end Sys2Proof
end

