-- ==== Sys2Proof/Config.lean ====
section
/-! DEFINITION. What is fixed for one block: its parameters (00_scope.md rule R7), and the free values that its registers without a reset value hold (10_state.md rules R35, R36). -/

namespace Sys2Proof

/-- `TAKE_ORDER` (42_sync_consumer.md rule R138): `TST` first and both captures before both clears, either order inside each pair.
The two fields choose the four admissible orders; the default is `TST, CAPB, CAPL, CLRR, CLRL`. -/
structure TakeOrder where
  /-- `CAPL` before `CAPB`. -/
  captureLengthFirst : Bool := false
  /-- `CLRL` before `CLRR`. -/
  clearLengthFirst : Bool := false
deriving DecidableEq, Repr

/-- The parameters a model takes as arguments (rule R7), with the spec's defaults. -/
structure Params where
  /-- `BUF_SIZE`, bytes in each receive buffer. -/
  bufSize : Nat := 256
  /-- `CRC_MODE_RESET`, the value of `crc_mode` after reset. -/
  crcModeReset : Bit := 0
  /-- `TAKE_ORDER`, the order of the five commands of `TAKE`. -/
  takeOrder : TakeOrder := {}
deriving DecidableEq, Repr

/-- DESIGN CHOICE (log entry 3): what `crc` holds after the n-th reset. A free value: rule R36 forbids a model to pick one. -/
opaque Config.crcAtReset : Nat → Half

/-- DESIGN CHOICE (log entry 3): what `cap_len` holds after the n-th reset. A free value. -/
opaque Config.capLenAtReset : Nat → Half

/-- DESIGN CHOICE (log entry 3): what `cap_buf` holds after the n-th reset. A free value. -/
opaque Config.capBufAtReset : Nat → Bit

end Sys2Proof
end

