-- ==== Sys2Proof/Machine/State.lean ====
section
/-! DEFINITION. The state of the block (10_state.md rule R20), what its agents present to it and what it has answered (70_reset_and_hazards.md rule R189), the reasons a step can stop, and reset. -/

namespace Sys2Proof.Machine

/-- The receive buffer memory (10_state.md rule R30): the bytes that `RXW` has written since reset, sorted by address, no address twice.
An address that is not listed holds no value (rule R36; log entry 5). -/
abbrev Memory := List Host.Cell

/-- One thing presented to the block. -/
inductive Input where
  /-- An agent presents a command word on a port (30_encoding.md rule R70). -/
  | command (port : Port) (word : CommandWord)
  /-- Reset is applied (70_reset_and_hazards.md rules R170, R171). -/
  | reset
deriving DecidableEq, Repr

/-- The state: every item of rule R20, which items hold a value (rule R36), the parameters of the block, and the run's inputs and record. -/
structure State where
  /-- The parameters of this block (00_scope.md rule R7). No step writes them (log entry 7). -/
  params : Params
  /-- `buf[0]` and `buf[1]`, byte (k, i) at the address 256 * k + i (log entry 6). -/
  mem : Memory
  /-- `act_sel` (rule R24). -/
  actSel : Bit
  /-- `proc_sel` (rule R25). -/
  procSel : Bit
  /-- `length` (rule R26). -/
  length : Half
  /-- `ready` (rule R23). -/
  ready : Bit
  /-- `cap_buf` (rule R21). -/
  capBuf : Bit
  /-- `cap_len` (rule R21). -/
  capLen : Half
  /-- `crc` (rule R29). -/
  crc : Half
  /-- `crc_mode` (rule R27). -/
  crcMode : Bit
  /-- `p_fault` (rule R28). -/
  pFault : BitVec 2
  /-- `c_fault` (rule R28). -/
  cFault : BitVec 2
  /-- `cap_buf` holds a value: a `CAPB` has been performed since reset (rule R36). -/
  capBufWritten : Bool
  /-- `cap_len` holds a value: a `CAPL` has been performed since reset (rule R36). -/
  capLenWritten : Bool
  /-- `crc` holds a value: a `CRCI` has been performed since reset (rule R36). -/
  crcWritten : Bool
  /-- A register that held no value has been read since reset (60_exceptions.md rule R153; log entry 4). -/
  readUnwritten : Bool
  /-- What the agents present, in the total order of the steps still to come (20_memory.md rule R58; log entry 1). -/
  inputs : List Input
  /-- The C-port responses so far, oldest first (rule R189; log entry 8). -/
  responses : List Half
  /-- The buffers named by the `rx_arm` events so far, oldest first (41_sync_producer.md rule R125; log entry 8). -/
  rxArms : List Bit
  /-- How many resets `step` has performed: the index of the free values in use (log entry 3). -/
  resets : Nat
deriving DecidableEq, Repr

/-- Why the machine stops. -/
inductive Fault where
  /-- Raised by `RDB`, `CRCM` and `CRCK` when the buffer byte they need holds no value: the model-level fault `UNWRITTEN`
  (60_exceptions.md rule R153; log entry 5). Safe: the hardware goes on with an unknown byte. -/
  | unwritten (buffer : Bit) (index : Nat)
deriving DecidableEq, Repr

/-- Why the model gives no next state. -/
inductive Refusal where
  /-- Raised by `exec` for a command that has no meaning in the model yet; no arm uses it. Safe: nothing is claimed of the command. -/
  | notModelled (mnemonic : String)
  /-- Raised by `step` when no agent presents anything: the run has ended (70_reset_and_hazards.md rule R189; log entry 2).
  Safe: nothing is claimed of what the environment does after its last command. -/
  | noCommand
deriving DecidableEq, Repr

/-- The outcome of a command or a step. -/
abbrev Result := Host.Outcome State Fault Refusal

/-- The block with parameters `p` right after its `n`-th reset (10_state.md rule R35), nothing presented, `rx_arm(0)` emitted. -/
def State.resetWith (p : Params) (n : Nat) : State where
  params := p
  mem := []
  actSel := 0
  procSel := 1
  length := 0x0000
  ready := 0
  capBuf := Config.capBufAtReset n
  capLen := Config.capLenAtReset n
  crc := Config.crcAtReset n
  crcMode := p.crcModeReset
  pFault := 0
  cFault := 0
  capBufWritten := false
  capLenWritten := false
  crcWritten := false
  readUnwritten := false
  inputs := []
  responses := []
  rxArms := [0]
  resets := n

/-- The block with the default parameters right after reset (rule R35). -/
def State.reset : State := State.resetWith {} 0

end Sys2Proof.Machine
end

