-- ==== Sys2Proof/Machine/Ops.lean ====
section
/-! DEFINITION. The named operations over memory, registers, records and outputs that every meaning is written with; raising a fault; reset. -/

namespace Sys2Proof.Machine

/-! ## Memory (20_memory.md) -/

/-- The byte at an address, if it holds a value. -/
def Memory.read : Memory → Nat → Option Byte
  | [], _ => none
  | (a, b) :: rest, x => if x = a then some b else Memory.read rest x

/-- Write one byte, keeping the list sorted and without repeats. -/
def Memory.write : Memory → Nat → Byte → Memory
  | [], x, v => [(x, v)]
  | (a, b) :: rest, x, v =>
    if x < a then (x, v) :: (a, b) :: rest
    else if x = a then (x, v) :: rest
    else (a, b) :: Memory.write rest x v

/-- The addresses of the list are all above `lo`, strictly rising. -/
def Memory.risingFrom : Nat → Memory → Bool
  | _, [] => true
  | lo, (a, _) :: rest => decide (lo < a) && Memory.risingFrom a rest

/-- The canonical form: addresses strictly rising. (No entry can equal what an unlisted address reads as: that is no value.) -/
def Memory.wf : Memory → Bool
  | [] => true
  | (a, _) :: rest => Memory.risingFrom a rest

/-- The address of byte `i` of buffer `k` (20_memory.md rule R50; log entry 6). -/
def bufAddr (k : Bit) (i : Nat) : Nat := 256 * k.toNat + i

/-- `MemRead((k, i), 1)` (00_scope.md rule R10): `none` when the byte holds no value. -/
def readBuf (s : State) (k : Bit) (i : Nat) : Option Byte := Memory.read s.mem (bufAddr k i)

/-- `MemWrite((k, i), 1, v)` (00_scope.md rule R10). -/
def writeBuf (k : Bit) (i : Nat) (v : Byte) (s : State) : State :=
  { s with mem := Memory.write s.mem (bufAddr k i) v }

/-! ## Registers -/

/-- `act_sel` and `proc_sel` are written together, by `RXC` alone (10_state.md rules R24, R25). -/
def setRoles (act proc : Bit) (s : State) : State := { s with actSel := act, procSel := proc }

/-- `length <- v` (rule R26). -/
def setLength (v : Half) (s : State) : State := { s with length := v }

/-- `cap_buf <- k`: from now on it holds a value (rules R21, R36). -/
def setCapBuf (k : Bit) (s : State) : State := { s with capBuf := k, capBufWritten := true }

/-- `cap_len <- v`: from now on it holds a value (rules R21, R36). -/
def setCapLen (v : Half) (s : State) : State := { s with capLen := v, capLenWritten := true }

/-- `crc <- v`, an update of the running value (rule R29). It leaves open whether `crc` holds a value: only `CRCI` gives it one (40_crc.md rule R101). -/
def setCrc (v : Half) (s : State) : State := { s with crc := v }

/-- `crc <- v` by `CRCI`, which gives `crc` a value (rule R101). -/
def startCrc (v : Half) (s : State) : State := { s with crc := v, crcWritten := true }

/-- `crc_mode <- m` (rule R27). -/
def setCrcMode (m : Bit) (s : State) : State := { s with crcMode := m }

/-- A register has been read; `written` says whether it held a value (rules R36, R153; log entry 4). -/
def noteRead (written : Bool) (s : State) : State :=
  { s with readUnwritten := s.readUnwritten || !written }

/-! ## Outputs -/

/-- `rsp <- r` (rule R10): a C-port command returns its response word. -/
def respond (r : Half) (s : State) : State := { s with responses := s.responses ++ [r] }

/-- `emit rx_arm(k)` (41_sync_producer.md rule R125). -/
def emitRxArm (k : Bit) (s : State) : State := { s with rxArms := s.rxArms ++ [k] }

/-! ## Faults (60_exceptions.md rules R151, R152) -/

/-- The hardware fault causes. -/
inductive Cause where
  | illegal | idx | size
deriving DecidableEq, Repr

/-- The code that a record takes (rule R151). -/
def Cause.code : Cause → BitVec 2
  | .illegal => 1
  | .idx => 2
  | .size => 3

/-- "if that record is 0 it takes the code, and if it is already nonzero it keeps its old code (first fault wins)". -/
def keepFirst (old : BitVec 2) (c : Cause) : BitVec 2 := if old = 0 then c.code else old

/-- The record of port `p` takes the cause. -/
def recordFault (p : Port) (c : Cause) (s : State) : State :=
  { s with
    pFault := if p = .producer then keepFirst s.pFault c else s.pFault
    cFault := if p = .consumer then keepFirst s.cFault c else s.cFault }

/-- What a fault does, this block's trap entry (rule R152): the command is not performed, the record of its port takes the cause,
and on the C-port the response is 0x0000. The port then accepts the next command. -/
def raiseFault (p : Port) (c : Cause) (s : State) : State :=
  match p with
  | .producer => recordFault .producer c s
  | .consumer => respond 0x0000 (recordFault .consumer c s)

/-! ## Inputs and reset -/

/-- What is still to be presented. -/
def setInputs (l : List Input) (s : State) : State := { s with inputs := l }

/-- What is presented next, and the state with it taken off the inputs (20_memory.md rule R59). -/
def nextInput (s : State) : Option (Input × State) :=
  match s.inputs with
  | [] => none
  | i :: rest => some (i, setInputs rest s)

/-- Put something in front of what is presented. -/
def presentNext (i : Input) (s : State) : State := setInputs (i :: s.inputs) s

/-- Reset applied during a run (70_reset_and_hazards.md rules R170, R171): every item as rule R35 says, `rx_arm(0)` emitted;
what is still to be presented and the record of the run stay (log entry 16). -/
def applyReset (s : State) : State :=
  { State.resetWith s.params (s.resets + 1) with
    inputs := s.inputs
    responses := s.responses
    rxArms := s.rxArms ++ [0] }

end Sys2Proof.Machine
end

