-- ==== Sys2Proof/Machine/Flags.lean ====
section
/-! DEFINITION. The one flag, `ready` (10_state.md rule R23): set by `RXC`, cleared by `CLRR`, read by `TST`. -/

namespace Sys2Proof.Machine

/-- `ready <- 1`. -/
def setReady (s : State) : State := { s with ready := 1 }

/-- `ready <- 0`. -/
def clearReady (s : State) : State := { s with ready := 0 }

end Sys2Proof.Machine
end

