-- ==== Sys2Proof/Machine/Operands.lean ====
section
/-! DEFINITION. The operand forms: the index and size checks (20_memory.md rule R56, 41_sync_producer.md rule R122), the buffer that the state chooses (rule R51), and the assembly of response words (30_encoding.md rule R73). -/

namespace Sys2Proof.Machine

/-- `n < BUF_SIZE`, in unbounded arithmetic (rule R56). -/
def indexOk (s : State) (n : Nat) : Bool := decide (n < s.params.bufSize)

/-- `size <= BUF_SIZE` (rule R122). -/
def sizeOk (s : State) (size : Half) : Bool := decide (size.toNat ≤ s.params.bufSize)

/-- A byte of the buffer that `RDB`, `CRCM` and `CRCK` read: `buf[cap_buf]` (rule R51). -/
def readTaken (s : State) (i : Nat) : Option Byte := readBuf s s.capBuf i

/-- The byte that `RXW` writes is in the `active` buffer: `buf[act_sel]` (rule R51). -/
def writeActive (i : Nat) (v : Byte) (s : State) : State := writeBuf s.actSel i v s

/-- "a 1-bit result in rsp[0] with rsp[15:1] = 0". -/
def bitResponse (b : Bit) : Half := b.setWidth 16

/-- "a byte in rsp[7:0] with rsp[15:8] = 0". -/
def byteResponse (b : Byte) : Half := b.setWidth 16

/-- A truth value as a 1-bit result. -/
def testResponse (b : Bool) : Half := if b then 0x0001 else 0x0000

end Sys2Proof.Machine
end

