-- ==== Sys2Proof/Machine/Consumer.lean ====
section
/-! DEFINITION. The consumer side of the frame synchronizer (42_sync_consumer.md rules R131 to R137). -/

namespace Sys2Proof.Machine

/-- `TST` (rule R131): `rsp <- zext_16(ready)`. -/
def execTst (s : State) : Result := .next (respond (bitResponse s.ready) s)

/-- `CAPB` (rule R132): `cap_buf <- proc_sel`. -/
def execCapb (s : State) : Result := .next (respond 0x0000 (setCapBuf s.procSel s))

/-- `CAPL` (rule R133): `cap_len <- length`. -/
def execCapl (s : State) : Result := .next (respond 0x0000 (setCapLen s.length s))

/-- `CLRR` (rule R134): `ready <- 0`, whatever it was. -/
def execClrr (s : State) : Result := .next (respond 0x0000 (clearReady s))

/-- `CLRL` (rule R135): `length <- 0x0000`, whatever it was. -/
def execClrl (s : State) : Result := .next (respond 0x0000 (setLength 0x0000 s))

/-- `RDB idx` (rule R136): `rsp <- zext_16(buf[cap_buf][idx])`; `IDX` before any read (60_exceptions.md rule R156). -/
def execRdb (idx : BitVec 8) (s : State) : Result :=
  if indexOk s idx.toNat then
    match readTaken s idx.toNat with
    | some b => .next (respond (byteResponse b) (noteRead s.capBufWritten s))
    | none => .fault (.unwritten s.capBuf idx.toNat)
  else .next (raiseFault .consumer .idx s)

/-- `RDL` (rule R137): `rsp <- cap_len`. -/
def execRdl (s : State) : Result := .next (respond s.capLen (noteRead s.capLenWritten s))

end Sys2Proof.Machine
end

