-- ==== Sys2Proof/Machine/CrcFunction.lean ====
section
/-! DEFINITION. The checksum (40_crc.md rules R90 to R98): the one-bit step, the two strategies for a byte, the table, the whole function, its byte order. -/

namespace Sys2Proof.Machine

/-- `CRC_POLY`, 0x8005 reflected (00_scope.md rule R7). -/
def crcPoly : Half := 0xA001

/-- `CRC_INIT` (rule R7). -/
def crcInit : Half := 0xFFFF

/-- One bit iteration (rule R91). -/
def step1 (c : Half) : Half :=
  if c.getLsbD 0 then (c >>> 1) ^^^ crcPoly else c >>> 1

/-- `step1` applied `n` times. -/
def stepN : Nat → Half → Half
  | 0, c => c
  | n + 1, c => stepN n (step1 c)

/-- Byte update, bit-serial strategy (rule R92): "8 iterations per byte". -/
def updBitwise (c : Half) (b : Byte) : Half := stepN 8 (c ^^^ b.setWidth 16)

/-- The table by its definition, `T[i] = step1^8(zext_16(i))` (rule R94); the listing of the rule is a test. -/
def tableEntry (i : Byte) : Half := stepN 8 (i.setWidth 16)

/-- Byte update, table-driven strategy (rule R93): `(c >> 8) xor T[(c xor zext_16(b))[7:0]]`. -/
def updTable (c : Half) (b : Byte) : Half :=
  (c >>> 8) ^^^ tableEntry ((c ^^^ b.setWidth 16).setWidth 8)

/-- The strategy that `crc_mode` selects (rule R100): 0 bit-serial, 1 table-driven. -/
def upd (mode : Bit) (c : Half) (b : Byte) : Half :=
  if mode = 0 then updBitwise c b else updTable c b

/-- The whole function (rule R95), from an initial value `c`. -/
def crcFrom (c : Half) (bytes : List Byte) : Half := bytes.foldl updBitwise c

/-- `crc16(B, L)` of the `L` bytes listed (rules R90, R95). -/
def crc16 (bytes : List Byte) : Half := crcFrom crcInit bytes

/-- `c[7:0]`, the CRC byte at the lower index (20_memory.md rule R52). -/
def crcLow (c : Half) : Byte := c.setWidth 8

/-- `c[15:8]`, the CRC byte at the higher index (20_memory.md rule R52). -/
def crcHigh (c : Half) : Byte := (c >>> 8).setWidth 8

end Sys2Proof.Machine
end

