-- ==== Sys2Proof/Machine/Crc.lean ====
section
/-! DEFINITION. The commands of the CRC engine (40_crc.md rules R101 to R106). -/

namespace Sys2Proof.Machine

/-- The accumulator takes the next byte, by the strategy `crc_mode` selects (rules R100, R102, R103). -/
def accumulate (b : Byte) (s : State) : State :=
  noteRead s.crcWritten (setCrc (upd s.crcMode s.crc b) s)

/-- "if lo == crc[7:0] and hi == crc[15:8]" (rule R105). -/
def crcMatches (c : Half) (lo hi : Byte) : Bool :=
  decide (lo = crcLow c) && decide (hi = crcHigh c)

/-- `CRCI` (rule R101): `crc <- 0xFFFF`. -/
def execCrci (s : State) : Result := .next (respond 0x0000 (startCrc crcInit s))

/-- `CRCB data` (rule R102): `crc <- upd(crc, data)`. -/
def execCrcb (data : BitVec 8) (s : State) : Result := .next (respond 0x0000 (accumulate data s))

/-- `CRCM idx` (rule R103): `crc <- upd(crc, buf[cap_buf][idx])`; `IDX` before any read. -/
def execCrcm (idx : BitVec 8) (s : State) : Result :=
  if indexOk s idx.toNat then
    match readTaken s idx.toNat with
    | some b => .next (respond 0x0000 (noteRead s.capBufWritten (accumulate b s)))
    | none => .fault (.unwritten s.capBuf idx.toNat)
  else .next (raiseFault .consumer .idx s)

/-- `CRCR` (rule R104): `rsp <- crc`. -/
def execCrcr (s : State) : Result := .next (respond s.crc (noteRead s.crcWritten s))

/-- `CRCK idx` (rule R105): the bytes at `idx` and `idx + 1` against `crc[7:0]` and `crc[15:8]`; `IDX` before any read. -/
def execCrck (idx : BitVec 8) (s : State) : Result :=
  if indexOk s (idx.toNat + 1) then
    match readTaken s idx.toNat with
    | none => .fault (.unwritten s.capBuf idx.toNat)
    | some lo =>
      match readTaken s (idx.toNat + 1) with
      | none => .fault (.unwritten s.capBuf (idx.toNat + 1))
      | some hi =>
        .next (respond (testResponse (crcMatches s.crc lo hi))
          (noteRead s.capBufWritten (noteRead s.crcWritten s)))
  else .next (raiseFault .consumer .idx s)

/-- `CFGM mode` (rule R106): `crc_mode <- mode`. -/
def execCfgm (mode : BitVec 1) (s : State) : Result := .next (respond 0x0000 (setCrcMode mode s))

end Sys2Proof.Machine
end

