-- ==== Sys2Proof/Machine/Producer.lean ====
section
/-! DEFINITION. The producer side of the frame synchronizer (41_sync_producer.md rules R121, R122). -/

namespace Sys2Proof.Machine

/-- `RXW idx, data` (rule R121): `buf[act_sel][idx] <- data`. -/
def execRxw (idx : BitVec 8) (data : BitVec 8) (s : State) : Result :=
  if indexOk s idx.toNat then .next (writeActive idx.toNat data s)
  else .next (raiseFault .producer .idx s)

/-- The five effects of `RXC`, in one step, the right-hand sides read before any left-hand side is written (rules R122, R123). -/
def completeFrame (size : Half) (s : State) : State :=
  emitRxArm (~~~s.actSel) (setReady (setLength size (setRoles (~~~s.actSel) s.actSel s)))

/-- `RXC size` (rule R122). It does not read `ready`: an overrun is performed like any other. -/
def execRxc (size : BitVec 16) (s : State) : Result :=
  if sizeOk s size then .next (completeFrame size s)
  else .next (raiseFault .producer .size s)

end Sys2Proof.Machine
end

