-- ==== Sys2Proof/Machine/Dispatch.lean ====
section
/-! DEFINITION. One arm per command: its meaning. -/

namespace Sys2Proof.Machine

def exec (i : Instr) (s : State) : Host.Outcome State Fault Refusal :=
  match i with
  | .tst => Sys2Proof.Machine.execTst s
  | .capb => Sys2Proof.Machine.execCapb s
  | .capl => Sys2Proof.Machine.execCapl s
  | .clrr => Sys2Proof.Machine.execClrr s
  | .clrl => Sys2Proof.Machine.execClrl s
  | .rdb idx => Sys2Proof.Machine.execRdb idx s
  | .rdl => Sys2Proof.Machine.execRdl s
  | .crci => Sys2Proof.Machine.execCrci s
  | .crcb data => Sys2Proof.Machine.execCrcb data s
  | .crcm idx => Sys2Proof.Machine.execCrcm idx s
  | .crcr => Sys2Proof.Machine.execCrcr s
  | .crck idx => Sys2Proof.Machine.execCrck idx s
  | .cfgm mode => Sys2Proof.Machine.execCfgm mode s
  | .rxw idx data => Sys2Proof.Machine.execRxw idx data s
  | .rxc size => Sys2Proof.Machine.execRxc size s

end Sys2Proof.Machine
end

