-- ==== Sys2Proof/Machine/Perform.lean ====
section
/-! DEFINITION. Performing what is presented: decode the word on its port and run it, or raise `ILLEGAL` (30_encoding.md rules R75, R76, R88), or reset. -/

namespace Sys2Proof.Machine

/-- One command word presented on a port, performed as one step (20_memory.md rule R58). -/
def performWord (p : Port) (w : CommandWord) (s : State) : Result :=
  match decode p w with
  | .ok i => exec i s
  | .error _ => .next (raiseFault p .illegal s)

/-- One input. -/
def performInput (i : Input) (s : State) : Result :=
  match i with
  | .command p w => performWord p w s
  | .reset => .next (applyReset s)

end Sys2Proof.Machine
end

