-- ==== Sys2Proof/Machine/Step.lean ====
section
/-! DEFINITION. One step: the block takes what is presented next and performs it (20_memory.md rules R58, R59). -/

namespace Sys2Proof.Machine

/-- One step of the run. Where nothing is presented the run has ended (70_reset_and_hazards.md rule R189). -/
def step (s : State) : Host.Outcome State Fault Refusal :=
  match nextInput s with
  | none => .refused .noCommand
  | some (i, t) => performInput i t

/-- `s` with a word of the opcode table presented next, on the port its `op[7]` names (log entries 2, 9). -/
def State.withFetchWord (s : State) (nbits w : Nat) : State :=
  presentNext (.command (wordPort (tableWord nbits w)) (tableWord nbits w)) s

end Sys2Proof.Machine
end

