-- ==== Sys2Proof/WellFormed.lean ====
section
/-! DEFINITION. Which parameters a block may have (00_scope.md rule R7) and which operands are in range for a block.
The widths of `Instr`'s operands already say which commands are encodable (every one is); the range of an operand against BUF_SIZE is no matter of decoding (30_encoding.md rule R88) and is named here for the claims. -/

namespace Sys2Proof

/-- `4 <= BUF_SIZE <= 256` (rule R7). -/
def Params.wf (p : Params) : Bool :=
  decide (4 ≤ p.bufSize) && decide (p.bufSize ≤ 256)

/-- The operand is one the command accepts on a block of `n`-byte buffers: `idx < BUF_SIZE`, for `CRCK` `idx + 1 < BUF_SIZE`
(20_memory.md rule R56), `size <= BUF_SIZE` (41_sync_producer.md rule R122); every other command accepts every operand. -/
def Instr.inRange (n : Nat) : Instr → Bool
  | .tst => true
  | .capb => true
  | .capl => true
  | .clrr => true
  | .clrl => true
  | .rdb idx => decide (idx.toNat < n)
  | .rdl => true
  | .crci => true
  | .crcb _ => true
  | .crcm idx => decide (idx.toNat < n)
  | .crcr => true
  | .crck idx => decide (idx.toNat + 1 < n)
  | .cfgm _ => true
  | .rxw idx _ => decide (idx.toNat < n)
  | .rxc size => decide (size.toNat ≤ n)

end Sys2Proof
end

