-- ==== Sys2Proof/Machine/Pseudo.lean ====
section
/-! DEFINITION. The pseudo-instructions (30_encoding.md rules R84 to R87): names for command sequences that an agent issues; and performing a sequence of commands with nothing else between them. -/

namespace Sys2Proof.Machine

/-- The four pseudo-instructions. -/
inductive Pseudo where
  /-- `TAKE` (rule R84) -/
  | take
  /-- `CRC16 n` (rule R85) -/
  | crc16 (n : Nat)
  /-- `CHECK L` (rule R86) -/
  | check (l : Nat)
  /-- `APPEND b0, b1, ...` (rule R87) -/
  | append (bytes : List Byte)
deriving DecidableEq, Repr

/-- `CRC16 n` for 0 <= n <= BUF_SIZE; `CHECK L` for 2 <= L <= BUF_SIZE ("with L < 2 has no meaning and must not be issued"). -/
def Pseudo.wf (p : Params) : Pseudo → Bool
  | .take => true
  | .crc16 n => decide (n ≤ p.bufSize)
  | .check l => decide (2 ≤ l) && decide (l ≤ p.bufSize)
  | .append _ => true

/-- The two captures and the two clears of a take, in the order `TAKE_ORDER` gives (42_sync_consumer.md rule R138). -/
def takeTail (o : TakeOrder) : List Instr :=
  (if o.captureLengthFirst then [.capl, .capb] else [.capb, .capl]) ++
  (if o.clearLengthFirst then [.clrl, .clrr] else [.clrr, .clrl])

/-- What the consumer's agent issues once its `TST` has been answered: nothing on 0, the rest of the take on 1 (rules R139, R143). -/
def takeAfterTest (o : TakeOrder) (rsp : Half) : List Instr :=
  if rsp = 0 then [] else takeTail o

/-- `CRC16 n`: `CRCI`, then `CRCM 0`, ..., `CRCM n-1` (rule R85). -/
def crc16Commands (n : Nat) : List Instr :=
  .crci :: (List.range n).map (fun j => .crcm (BitVec.ofNat 8 j))

/-- `CHECK L`: `CRC16 (L - 2)`, then `CRCK (L - 2)` (rule R86). -/
def checkCommands (l : Nat) : List Instr :=
  crc16Commands (l - 2) ++ [.crck (BitVec.ofNat 8 (l - 2))]

/-- `APPEND`: `CRCI`, `CRCB` of each byte, then `CRCR` (rule R87). -/
def appendCommands (bytes : List Byte) : List Instr :=
  .crci :: bytes.map .crcb ++ [.crcr]

/-- The expansion of a pseudo-instruction; for `TAKE`, the five commands of a take whose `TST` answers 1. -/
def Pseudo.expand (p : Params) : Pseudo → List Instr
  | .take => .tst :: takeTail p.takeOrder
  | .crc16 n => crc16Commands n
  | .check l => checkCommands l
  | .append bytes => appendCommands bytes

/-- Perform commands one after the other, stopping where one stops. -/
def performAll : List Instr → State → Result
  | [], s => .next s
  | i :: rest, s =>
    match exec i s with
    | .next t => performAll rest t
    | .fault f => .fault f
    | .refused r => .refused r

end Sys2Proof.Machine
end

