-- ==== Sys2Proof/Safety.lean ====
section
/-! DEFINITION. What counts as a safe run, and the predicates the claims use: the run that has gone wrong (60_exceptions.md rules R152, R153), the invariant of the state (10_state.md rules R26, R33; 60_exceptions.md rule R151), and the state up to the strategy flag (40_crc.md rule R100). -/

namespace Sys2Proof.Machine

/-- "A model must treat a run in which either fault record is nonzero as a run that has gone wrong" (rule R152), and a read of an item
that holds no value "exactly as for rule R152" (rule R153). -/
def State.goneWrong (s : State) : Bool :=
  decide (s.pFault ≠ 0) || decide (s.cFault ≠ 0) || s.readUnwritten

/-- An address of the receive buffers: buffer 0 or 1, index below BUF_SIZE (20_memory.md rule R50). -/
def addrExists (bufSize a : Nat) : Bool := decide (a < 512) && decide (a % 256 < bufSize)

/-- What holds of a block from reset on, whatever is presented to it. -/
structure State.Inv (s : State) : Prop where
  /-- BUF_SIZE is in its range (00_scope.md rule R7). -/
  params_wf : s.params.wf = true
  /-- The memory is in canonical form. -/
  mem_wf : Memory.wf s.mem = true
  /-- Only bytes of the two buffers hold a value (20_memory.md rule R50). -/
  mem_exists : s.mem.all (fun c => addrExists s.params.bufSize c.1) = true
  /-- `proc_sel == ~act_sel` (10_state.md rule R33). -/
  selectors : s.procSel = ~~~s.actSel
  /-- `length` is 0 to BUF_SIZE (10_state.md rule R26). -/
  length_le : s.length.toNat ≤ s.params.bufSize
  /-- A captured length is 0 to BUF_SIZE. -/
  capLen_le : s.capLenWritten = true → s.capLen.toNat ≤ s.params.bufSize
  /-- "Code 3 can only ever appear in p_fault" (60_exceptions.md rule R151). -/
  cFault_ne_size : s.cFault ≠ Cause.code .size

/-- The outcome with a function applied to the next state. -/
def mapNext {σ τ φ ρ : Type} (f : σ → τ) : Host.Outcome σ φ ρ → Host.Outcome τ φ ρ
  | .next s => .next (f s)
  | .fault r => .fault r
  | .refused r => .refused r

/-- The state with the strategy flag blotted out (rule R100). -/
def forgetMode (s : State) : State := { s with crcMode := 0 }

end Sys2Proof.Machine
end

