-- ==== Sys2Proof/Certificates/Slice0/Obligations.lean ====
section
/-! DEFINITION. The statements for the provers, each with the rule of spec/ it comes from. -/

open Sys2Proof Sys2Proof.Machine

/-! ## Reset -/

/-- 10_state.md rule R35: what every item holds after reset, for every parameter and every reset; an item with no value has its
`…Written` field false (log entries 3, 4) or is an unlisted byte (log entry 5); `rx_arm(0)` is emitted. -/
def Obligations.ResetLeavesTheTabledValues : Prop :=
  ∀ (p : Params) (n : Nat) (s : State), s = State.resetWith p n →
    s.actSel = 0 ∧ s.procSel = 1 ∧ s.length = 0 ∧ s.ready = 0 ∧ s.crcMode = p.crcModeReset ∧
    s.pFault = 0 ∧ s.cFault = 0 ∧ s.capBufWritten = false ∧ s.capLenWritten = false ∧ s.crcWritten = false ∧
    (∀ k i, readBuf s k i = none) ∧ s.rxArms = [0] ∧ s.responses = [] ∧
    State.reset = State.resetWith { bufSize := 256, crcModeReset := 0, takeOrder := ⟨false, false⟩ } 0

/-- The invariant holds after reset, whatever the parameters in their ranges. -/
def Obligations.ResetMeetsTheInvariant : Prop :=
  (∀ (p : Params) (n : Nat), p.wf = true → (State.resetWith p n).Inv) ∧ State.reset.Inv

/-- 70_reset_and_hazards.md rules R170, R171: reset presented during a run puts every item to its reset value and emits `rx_arm(0)`.
The parameters stay; that the inputs and the record of the run stay is the model's choice (log entry 16). -/
def Obligations.PresentedResetRestoresResetState : Prop :=
  ∀ (s : State) (rest : List Input), s.inputs = .reset :: rest →
    step s = .next { State.resetWith s.params (s.resets + 1) with
      inputs := rest, responses := s.responses, rxArms := s.rxArms ++ [0] }

/-! ## Encoding -/

/-- 30_encoding.md rules R73, R79, R88: every command, with every operand, is decoded from its word on its own port. -/
def Obligations.DecodeOfEncodeIsTheCommand : Prop :=
  ∀ i : Instr, decode i.port (encode i) = .ok i

/-- 30_encoding.md rules R79, R88: a word that is decoded is the encoding of the command answered, on that command's port. -/
def Obligations.DecodedWordIsTheEncoding : Prop :=
  ∀ (p : Port) (w : CommandWord) (i : Instr), decode p w = .ok i → encode i = w ∧ i.port = p

/-- 30_encoding.md rule R72: a word is an instance of a command exactly when `(w and mask) == match` for its row, on the row's port. -/
def Obligations.DecodedExactlyWhenMaskMatches : Prop :=
  ∀ (p : Port) (w : CommandWord), (∃ i, decode p w = .ok i) ↔
    ∃ r ∈ opcodeRows, w &&& r.format.mask = r.matchWord ∧ opPort r.op = p

/-- 30_encoding.md rule R74: "no 32-bit word is an instance of two commands, because the opcodes differ". The opcodes of the fifteen rows differ
pairwise, no word matches two rows at different places of the map, and two rows of the map that one word matches are the same row. -/
def Obligations.NoWordMatchesTwoRows : Prop :=
  opcodeRows.length = 15 ∧
  opcodeRows.Pairwise (fun r q => r.op ≠ q.op) ∧
  opcodeRows.Pairwise (fun r q => ∀ w : CommandWord,
    ¬(w &&& r.format.mask = r.matchWord ∧ w &&& q.format.mask = q.matchWord)) ∧
  ∀ (w : CommandWord) (r q : OpcodeRow), r ∈ opcodeRows → q ∈ opcodeRows →
    w &&& r.format.mask = r.matchWord → w &&& q.format.mask = q.matchWord → r = q

/-- 95_test_vectors.md V105, V108, V112, V113, V114: words written out from rule R74, one of each format with operands and one without. -/
def Obligations.WordsOfTheTableDecode : Prop :=
  decode .consumer 0x01000000 = .ok .tst ∧ decode .consumer 0x06FF0000 = .ok (.rdb 255) ∧
  decode .consumer 0x110000E4 = .ok (.crcb 0xE4) ∧ decode .consumer 0x15000001 = .ok (.cfgm 1) ∧
  decode .producer 0x80030011 = .ok (.rxw 3 0x11) ∧ decode .producer 0x81000100 = .ok (.rxc 256) ∧
  decode .consumer 0x00000000 = .error .unknownOp ∧ decode .producer 0x81010008 = .error .reservedBits

/-! ## One step -/

/-- 20_memory.md rules R58, R59: a step takes the word presented next and performs the command it decodes to. -/
def Obligations.StepRunsTheDecodedCommand : Prop :=
  ∀ (s : State) (p : Port) (w : CommandWord) (rest : List Input) (i : Instr),
    s.inputs = .command p w :: rest → decode p w = .ok i → step s = exec i { s with inputs := rest }

/-- 30_encoding.md rule R75 and 60_exceptions.md rules R151, R152: an illegal word is not performed; only the record of its port
takes the code 1, if it was 0, and on the C-port the response is 0x0000. -/
def Obligations.IllegalWordOnlyRecordsTheFault : Prop :=
  ∀ (s : State) (p : Port) (w : CommandWord) (rest : List Input) (e : Illegal),
    s.inputs = .command p w :: rest → decode p w = .error e →
    step s = .next (match p with
      | .producer => { s with inputs := rest, pFault := if s.pFault = 0 then 1 else s.pFault }
      | .consumer => { s with
          inputs := rest, cFault := if s.cFault = 0 then 1 else s.cFault, responses := s.responses ++ [0] })

/-- 30_encoding.md rule R76: a legal command on the other port is not performed and raises `ILLEGAL` on the port it was presented on. -/
def Obligations.WrongPortCommandRaisesIllegal : Prop :=
  ∀ (s : State) (i : Instr) (rest : List Input), s.inputs = .command i.port.other (encode i) :: rest →
    step s = .next (match i.port.other with
      | .producer => { s with inputs := rest, pFault := if s.pFault = 0 then 1 else s.pFault }
      | .consumer => { s with
          inputs := rest, cFault := if s.cFault = 0 then 1 else s.cFault, responses := s.responses ++ [0] })

/-- 70_reset_and_hazards.md rule R189: with nothing presented the run has ended. The refusal is the model's choice (log entry 2). -/
def Obligations.StepWithNothingPresentedIsRefused : Prop :=
  ∀ s : State, s.inputs = [] → step s = .refused .noCommand

/-- 30_encoding.md rule R70: a step takes one word; a C-port word gets exactly one response, a P-port word none. -/
def Obligations.OneResponsePerConsumerWord : Prop :=
  ∀ (s t : State) (p : Port) (w : CommandWord) (rest : List Input),
    s.inputs = .command p w :: rest → step s = .next t →
    t.inputs = rest ∧ ∃ new : List Half, t.responses = s.responses ++ new ∧
      new.length = (match p with | .consumer => 1 | .producer => 0)

/-! ## The CRC function -/

/-- 40_crc.md rule R96 (marked derived by the spec): the two strategies, and any mixture of them from byte to byte, give the same value. -/
def Obligations.MixedStrategiesAgreeWithBitSerial : Prop :=
  ∀ (bytes : List (Bit × Byte)) (c : Half),
    bytes.foldl (fun c p => upd p.1 c p.2) c = crcFrom c (bytes.map Prod.snd)

/-- 40_crc.md rule R97 (marked derived by the spec): the consequences of linearity, for each strategy. -/
def Obligations.UpdateIsLinear : Prop :=
  ∀ (m : Bit) (c d : Half) (b : Byte),
    upd m (c ^^^ d) b = upd m c b ^^^ upd m d 0 ∧ upd m 0 0 = 0 ∧ upd m c b = upd m (c ^^^ b.setWidth 16) 0

/-- 40_crc.md rule R99 (marked derived by the spec): running the function over a frame gives 0x0000 exactly when its two trailing bytes
are the CRC of the bytes before them, low byte first (rule R98). -/
def Obligations.ResidueIsZeroExactlyForTheCorrectCrc : Prop :=
  ∀ (body : List Byte) (lo hi : Byte),
    crc16 (body ++ [lo, hi]) = 0 ↔ (lo = crcLow (crc16 body) ∧ hi = crcHigh (crc16 body))

/-- 40_crc.md rules R91, R92 (their details are marked general knowledge by the spec, log entry 12): the update shifts right eight times,
adding 0xA001 exactly when the bit shifted out is 1, stated by the register before and after one iteration. -/
def Obligations.OneIterationShiftsRightAndAddsThePolynomial : Prop :=
  ∀ (c : Half) (j : Nat), j < 16 →
    (step1 c).getLsbD j = ((c.getLsbD (j + 1)) ^^ (c.getLsbD 0 && (0xA001 : Half).getLsbD j))

/-! ## Consumer commands -/

/-- 42_sync_consumer.md rule R131: `TST` answers `ready` and changes nothing else; from a state with `ready` 0 (after reset or a `CLRR`),
`ready` is 1 only when an `RXC` is among the commands performed since. -/
def Obligations.TstAnswersReady : Prop :=
  encode .tst = 0x01000000 ∧
  (∀ s : State, exec .tst s = .next { s with responses := s.responses ++ [s.ready.setWidth 16] }) ∧
  ∀ (l : List Instr) (s t : State), s.ready = 0 → performAll l s = .next t → t.ready = 1 → ∃ n, Instr.rxc n ∈ l

/-- 42_sync_consumer.md rule R132: whatever `ready` is; the bytes stay where they are. -/
def Obligations.CapbCapturesTheProcessBuffer : Prop :=
  encode .capb = 0x02000000 ∧ ∀ s : State, exec .capb s = .next { s with
    capBuf := s.procSel, capBufWritten := true, responses := s.responses ++ [0] }

/-- 42_sync_consumer.md rule R133: whatever `ready` is. -/
def Obligations.CaplCapturesTheLength : Prop :=
  encode .capl = 0x03000000 ∧ ∀ s : State, exec .capl s = .next { s with
    capLen := s.length, capLenWritten := true, responses := s.responses ++ [0] }

/-- 42_sync_consumer.md rule R134: unconditionally. -/
def Obligations.ClrrClearsReady : Prop :=
  encode .clrr = 0x04000000 ∧ ∀ s : State, exec .clrr s = .next { s with
    ready := 0, responses := s.responses ++ [0] }

/-- 42_sync_consumer.md rule R135: unconditionally; `cap_len` is not affected. -/
def Obligations.ClrlClearsLength : Prop :=
  encode .clrl = 0x05000000 ∧ ∀ s : State, exec .clrl s = .next { s with
    length := 0, responses := s.responses ++ [0] }

/-- 42_sync_consumer.md rule R136: the byte of `buf[cap_buf]` at this step. With a `cap_buf` that holds no value the model goes on with
its free value and records it (log entries 3, 4). -/
def Obligations.RdbAnswersAByteOfTheCapturedBuffer : Prop :=
  ∀ (s : State) (idx b : Byte), idx.toNat < s.params.bufSize → readBuf s s.capBuf idx.toNat = some b →
    exec (.rdb idx) s = .next { s with
      readUnwritten := s.readUnwritten || !s.capBufWritten, responses := s.responses ++ [(0 : BitVec 8) ++ b] }

/-- 42_sync_consumer.md rule R137. With a `cap_len` that holds no value the rule gives the model fault `UNWRITTEN`; going on with its free value
and recording the read is the model's choice (log entries 3, 4). -/
def Obligations.RdlAnswersTheCapturedLength : Prop :=
  ∀ s : State, exec .rdl s = .next { s with
    readUnwritten := s.readUnwritten || !s.capLenWritten, responses := s.responses ++ [s.capLen] }

/-! ## CRC commands -/

/-- 40_crc.md rule R101: in any state; no other command gives `crc` a value when it has none. -/
def Obligations.CrciLoadsTheInitialValue : Prop :=
  encode .crci = 0x10000000 ∧
  (∀ s : State, exec .crci s = .next { s with crc := 0xFFFF, crcWritten := true, responses := s.responses ++ [0] }) ∧
  ∀ (i : Instr) (s t : State), i ≠ .crci → exec i s = .next t → t.crcWritten = s.crcWritten

/-- 40_crc.md rules R100, R102: the accumulator takes the bit-serial update whatever the strategy flag says. With a `crc` that
holds no value rule R102 gives the model fault `UNWRITTEN`; going on and recording the read is the model's choice (log entries 3, 4). -/
def Obligations.CrcbUpdatesByTheGivenByte : Prop :=
  ∀ (s : State) (data : Byte), exec (.crcb data) s = .next { s with
    crc := updBitwise s.crc data
    readUnwritten := s.readUnwritten || !s.crcWritten
    responses := s.responses ++ [0] }

/-- 40_crc.md rules R100, R103: the same with a byte of `buf[cap_buf]`. With a `crc` or `cap_buf` that holds no value rule R103 gives the model
fault `UNWRITTEN`; going on with the free value and recording the read is the model's choice (log entries 3, 4). -/
def Obligations.CrcmUpdatesByAByteOfTheCapturedBuffer : Prop :=
  ∀ (s : State) (idx b : Byte), idx.toNat < s.params.bufSize → readBuf s s.capBuf idx.toNat = some b →
    exec (.crcm idx) s = .next { s with
      crc := updBitwise s.crc b
      readUnwritten := s.readUnwritten || !s.crcWritten || !s.capBufWritten
      responses := s.responses ++ [0] }

/-- 40_crc.md rule R104. With a `crc` that holds no value the rule gives the model fault `UNWRITTEN`; going on with its free value and recording
the read is the model's choice (log entries 3, 4). -/
def Obligations.CrcrAnswersTheRunningValue : Prop :=
  ∀ s : State, exec .crcr s = .next { s with
    readUnwritten := s.readUnwritten || !s.crcWritten, responses := s.responses ++ [s.crc] }

/-- 40_crc.md rule R105, 20_memory.md rule R52: 1 exactly when the two bytes, the one at the higher index in the high bits, are `crc`.
With a `crc` or `cap_buf` that holds no value rule R105 gives the model fault `UNWRITTEN`; going on with the free value and recording the read is
the model's choice (log entries 3, 4). -/
def Obligations.CrckComparesLowByteFirst : Prop :=
  ∀ (s : State) (idx lo hi : Byte), idx.toNat + 1 < s.params.bufSize →
    readBuf s s.capBuf idx.toNat = some lo → readBuf s s.capBuf (idx.toNat + 1) = some hi →
    exec (.crck idx) s = .next { s with
      readUnwritten := s.readUnwritten || !s.crcWritten || !s.capBufWritten
      responses := s.responses ++ [if hi ++ lo = s.crc then 1 else 0] }

/-- 40_crc.md rule R106: the flag takes `mode`; a word of its opcode with any of `imm[15:1]` set is illegal; every later command gives the same
result, but for the flag itself, whatever the flag was set to. -/
def Obligations.CfgmSetsTheStrategyFlag : Prop :=
  (∀ mode : Bit, encode (.cfgm mode) = 0x15000000 ||| mode.setWidth 32) ∧
  (∀ (s : State) (mode : Bit), exec (.cfgm mode) s = .next { s with crcMode := mode, responses := s.responses ++ [0] }) ∧
  (∀ imm : BitVec 16, imm >>> 1 ≠ 0 → decode .consumer ((0x1500 : BitVec 16) ++ imm) = .error .reservedBits) ∧
  ∀ (l : List Instr) (s : State) (mode : Bit),
    mapNext forgetMode (performAll l { s with crcMode := mode }) = mapNext forgetMode (performAll l s)

/-! ## Producer commands -/

/-- 41_sync_producer.md rule R121: the byte `(act_sel, idx)` takes `data`, the byte at every other address and all other state stay;
out of range, only the P-port's record takes the code 2, if it was 0. -/
def Obligations.RxwStoresIntoTheActiveBuffer : Prop :=
  (∀ idx data : Byte, encode (.rxw idx data) = 0x80000000 ||| (idx.setWidth 32 <<< 16) ||| data.setWidth 32) ∧
  ∀ (s : State) (idx data : Byte),
    (idx.toNat < s.params.bufSize → ∃ m : Memory, exec (.rxw idx data) s = .next { s with mem := m } ∧
      readBuf { s with mem := m } s.actSel idx.toNat = some data ∧
      (∀ a : Nat, a ≠ bufAddr s.actSel idx.toNat → Memory.read m a = Memory.read s.mem a) ∧
      ∀ (k : Bit) (j : Nat), j < 256 → ¬(k = s.actSel ∧ j = idx.toNat) →
        readBuf { s with mem := m } k j = readBuf s k j) ∧
    (s.params.bufSize ≤ idx.toNat → exec (.rxw idx data) s = .next { s with
      pFault := if s.pFault = 0 then 2 else s.pFault })

/-- 41_sync_producer.md rule R122: the five effects, whatever `ready` was; a larger size only records the code 3, if the record was 0. -/
def Obligations.RxcSwapsRolesAndQueuesTheFrame : Prop :=
  (∀ size : Half, encode (.rxc size) = 0x81000000 ||| size.setWidth 32) ∧
  ∀ (s : State) (size : Half),
    (size.toNat ≤ s.params.bufSize → exec (.rxc size) s = .next { s with
      procSel := s.actSel, length := size, ready := 1, actSel := ~~~s.actSel, rxArms := s.rxArms ++ [~~~s.actSel] }) ∧
    (s.params.bufSize < size.toNat → exec (.rxc size) s = .next { s with
      pFault := if s.pFault = 0 then 3 else s.pFault })

/-! ## Faults -/

/-- 20_memory.md rule R56: an index out of range accesses nothing and faults `IDX` (code 2); at a BUF_SIZE of 256 `RXW`, `RDB` and
`CRCM` record nothing whatever the index, and `CRCK` records `IDX` for 255 alone. -/
def Obligations.IndexOutOfRangeAccessesNothing : Prop :=
  (∀ (s : State) (idx data : Byte), s.params.bufSize ≤ idx.toNat →
    exec (.rxw idx data) s = .next { s with pFault := if s.pFault = 0 then 2 else s.pFault } ∧
    exec (.rdb idx) s = .next { s with
      cFault := if s.cFault = 0 then 2 else s.cFault, responses := s.responses ++ [0] } ∧
    exec (.crcm idx) s = .next { s with
      cFault := if s.cFault = 0 then 2 else s.cFault, responses := s.responses ++ [0] }) ∧
  (∀ (s : State) (idx : Byte), s.params.bufSize ≤ idx.toNat + 1 →
    exec (.crck idx) s = .next { s with
      cFault := if s.cFault = 0 then 2 else s.cFault, responses := s.responses ++ [0] }) ∧
  ∀ s t : State, s.params.bufSize = 256 →
    (∀ idx data : Byte, exec (.rxw idx data) s = .next t → t.pFault = s.pFault) ∧
    (∀ idx : Byte, exec (.rdb idx) s = .next t → t.cFault = s.cFault) ∧
    (∀ idx : Byte, exec (.crcm idx) s = .next t → t.cFault = s.cFault) ∧
    (∀ idx : Byte, idx ≠ 255 → exec (.crck idx) s = .next t → t.cFault = s.cFault) ∧
    exec (.crck 255) s = .next { s with
      cFault := if s.cFault = 0 then 2 else s.cFault, responses := s.responses ++ [0] }

/-- 60_exceptions.md rule R153 for buffer bytes (log entries 5, 13): in range, a byte that holds no value stops the run, the lower one named. -/
def Obligations.UnwrittenByteStopsTheRun : Prop :=
  ∀ (s : State) (idx : Byte),
    (idx.toNat < s.params.bufSize → readBuf s s.capBuf idx.toNat = none →
      exec (.rdb idx) s = .fault (.unwritten s.capBuf idx.toNat) ∧
      exec (.crcm idx) s = .fault (.unwritten s.capBuf idx.toNat)) ∧
    (idx.toNat + 1 < s.params.bufSize → readBuf s s.capBuf idx.toNat = none →
      exec (.crck idx) s = .fault (.unwritten s.capBuf idx.toNat)) ∧
    (∀ lo, idx.toNat + 1 < s.params.bufSize → readBuf s s.capBuf idx.toNat = some lo →
      readBuf s s.capBuf (idx.toNat + 1) = none →
      exec (.crck idx) s = .fault (.unwritten s.capBuf (idx.toNat + 1)))

/-- 60_exceptions.md rules R151, R167: no hardware fault stops a command, and nothing is refused; a buffer byte that holds no value stops it
(rule R153, log entry 5). That nothing else stops it is the model's choice (log entries 3, 4): rules R36 and R153 also stop `RDL`, `CRCB`, `CRCR`,
`CRCM`, `CRCK` and `RDB` on a `cap_len`, `crc` or `cap_buf` that holds no value, where the model goes on and records the read. -/
def Obligations.OnlyAnUnwrittenByteStopsACommand : Prop :=
  ∀ (i : Instr) (s : State), (∃ t, exec i s = .next t) ∨
    ∃ (idx : Byte) (j : Nat), (i = .rdb idx ∨ i = .crcm idx ∨ i = .crck idx) ∧ j < s.params.bufSize ∧
      readBuf s s.capBuf j = none ∧ exec i s = .fault (.unwritten s.capBuf j)

/-- 60_exceptions.md rules R151, R159: a command whose operand is in range leaves both fault records as they are; one whose operand is out of
range records the code of `IDX` or `SIZE`. -/
def Obligations.RecordsChangeExactlyOutOfRange : Prop :=
  ∀ (i : Instr) (s t : State), exec i s = .next t →
    (i.inRange s.params.bufSize = true → t.pFault = s.pFault ∧ t.cFault = s.cFault) ∧
    (i.inRange s.params.bufSize = false →
      (i.port = .producer → s.pFault = 0 → t.pFault ≠ 0) ∧ (i.port = .consumer → s.cFault = 0 → t.cFault ≠ 0))

/-- 10_state.md rule R28, 60_exceptions.md rules R152, R158: the first fault of a port is kept by every step but a reset. -/
def Obligations.FirstFaultOfAPortIsKept : Prop :=
  ∀ s t : State, step s = .next t → s.inputs.head? ≠ some .reset →
    (s.pFault ≠ 0 → t.pFault = s.pFault) ∧ (s.cFault ≠ 0 → t.cFault = s.cFault)

/-- 60_exceptions.md rule R158: a word on one port, legal or not, leaves the other port's record alone. -/
def Obligations.PortsKeepSeparateRecords : Prop :=
  ∀ (s t : State) (p : Port) (w : CommandWord) (rest : List Input),
    s.inputs = .command p w :: rest → step s = .next t →
    (p = .consumer → t.pFault = s.pFault) ∧ (p = .producer → t.cFault = s.cFault)

/-! ## Frames -/

/-- 20_memory.md rule R51, 60_exceptions.md rule R160: what no C-port command writes, all of the receive buffers among it. -/
def Obligations.ConsumerCommandsLeaveProducerState : Prop :=
  ∀ (i : Instr) (s t : State), i.port = .consumer → exec i s = .next t →
    (∀ (k : Bit) (j : Nat), readBuf t k j = readBuf s k j) ∧ t.actSel = s.actSel ∧ t.procSel = s.procSel ∧
    t.pFault = s.pFault ∧ t.rxArms = s.rxArms ∧ t.params = s.params ∧ t.inputs = s.inputs ∧ t.resets = s.resets

/-- 10_state.md rules R21, R29, 60_exceptions.md rule R160: what no P-port command writes. -/
def Obligations.ProducerCommandsLeaveConsumerState : Prop :=
  ∀ (i : Instr) (s t : State), i.port = .producer → exec i s = .next t →
    t.capBuf = s.capBuf ∧ t.capLen = s.capLen ∧ t.crc = s.crc ∧ t.crcMode = s.crcMode ∧ t.cFault = s.cFault ∧
    t.capBufWritten = s.capBufWritten ∧ t.capLenWritten = s.capLenWritten ∧ t.crcWritten = s.crcWritten ∧
    t.readUnwritten = s.readUnwritten ∧ t.responses = s.responses ∧ t.params = s.params ∧ t.inputs = s.inputs ∧
    t.resets = s.resets

/-- 10_state.md rule R20, the column "Written by": each item changes only under the commands listed for it, a fault record only under a command of
its own port whose operand is out of range. (A word that is no command of its port, the other way to fault, is `IllegalWordOnlyRecordsTheFault`.) -/
def Obligations.ItemsChangeOnlyUnderTheirWriters : Prop :=
  ∀ (i : Instr) (s t : State), exec i s = .next t →
    ((∀ idx data, i ≠ .rxw idx data) → ∀ (k : Bit) (j : Nat), readBuf t k j = readBuf s k j) ∧
    ((∀ n, i ≠ .rxc n) → t.actSel = s.actSel ∧ t.procSel = s.procSel ∧ t.rxArms = s.rxArms) ∧
    ((∀ n, i ≠ .rxc n) → i ≠ .clrl → t.length = s.length) ∧
    ((∀ n, i ≠ .rxc n) → i ≠ .clrr → t.ready = s.ready) ∧
    (i ≠ .capb → t.capBuf = s.capBuf ∧ t.capBufWritten = s.capBufWritten) ∧
    (i ≠ .capl → t.capLen = s.capLen ∧ t.capLenWritten = s.capLenWritten) ∧
    (i ≠ .crci → (∀ b, i ≠ .crcb b) → (∀ idx, i ≠ .crcm idx) → t.crc = s.crc) ∧
    (i ≠ .crci → t.crcWritten = s.crcWritten) ∧
    ((∀ m, i ≠ .cfgm m) → t.crcMode = s.crcMode) ∧
    (i.inRange s.params.bufSize = true → t.pFault = s.pFault ∧ t.cFault = s.cFault) ∧
    (i.port = .consumer → t.pFault = s.pFault) ∧
    (i.port = .producer → t.cFault = s.cFault) ∧
    (t.params = s.params ∧ t.inputs = s.inputs ∧ t.resets = s.resets)

/-- 41_sync_producer.md rule R121: `RXW` leaves `buf[proc_sel]` alone while the selectors are complementary (rule R33), and never touches
`ready`, `length`, `proc_sel`, `act_sel`. -/
def Obligations.RxwNeverTouchesTheProcessBuffer : Prop :=
  ∀ (s t : State) (idx data : Byte), s.procSel = ~~~s.actSel → exec (.rxw idx data) s = .next t →
    (∀ j, j < 256 → readBuf t s.procSel j = readBuf s s.procSel j) ∧
    t.ready = s.ready ∧ t.length = s.length ∧ t.procSel = s.procSel ∧ t.actSel = s.actSel

/-! ## Invariants -/

/-- Every step, whatever is presented, keeps the invariant of the state: the parameter range, the canonical memory within the two buffers,
the complementary selectors, the length bounds, no `SIZE` in `c_fault`. -/
def Obligations.StepKeepsTheInvariant : Prop :=
  ∀ s t : State, s.Inv → step s = .next t → t.Inv

/-- 10_state.md rule R33 (marked derived by the spec): every step keeps the selectors complementary, in every state. -/
def Obligations.StepKeepsSelectorsComplementary : Prop :=
  ∀ s t : State, s.procSel = ~~~s.actSel → step s = .next t → t.procSel = ~~~t.actSel

/-- 40_crc.md rules R96, R100: through any run the strategy flag changes nothing but itself: not a register, a byte, a response or an outcome. -/
def Obligations.StrategyFlagChangesNothingElse : Prop :=
  ∀ (k : Nat) (s : State) (m : Bit),
    mapNext forgetMode (Host.Core.run core k { s with crcMode := m }) = mapNext forgetMode (Host.Core.run core k s)

/-! ## The take and the CRC pseudo-instructions -/

/-- 42_sync_consumer.md rule R140 (marked derived by the spec): a take of a ready frame, in each of the four orders and with `RXW` steps anywhere
between its commands, captures the queued pair, clears `ready` and `length`, keeps the selectors and leaves the taken buffer untouched. -/
def Obligations.UndisturbedTakeCapturesTheQueuedFrame : Prop :=
  ∀ (o : TakeOrder) (l : List Instr) (s : State),
    (∀ i ∈ l, i.port = .producer → ∃ idx data, i = .rxw idx data) →
    l.filter (fun i => i.port = .consumer) = .tst :: takeAfterTest o 1 →
    s.ready = 1 → s.procSel = ~~~s.actSel →
    ∃ t, performAll l s = .next t ∧ t.capBuf = s.procSel ∧ t.capLen = s.length ∧
      t.capBufWritten = true ∧ t.capLenWritten = true ∧ t.ready = 0 ∧ t.length = 0 ∧
      t.actSel = s.actSel ∧ t.procSel = s.procSel ∧ t.capBuf = ~~~t.actSel ∧
      t.responses = s.responses ++ [1, 0, 0, 0, 0] ∧
      ∀ j, j < 256 → readBuf t t.capBuf j = readBuf s t.capBuf j

/-- 42_sync_consumer.md rule R141 (marked derived by the spec): where the intruding `RXC s2` falls decides the pair returned and the state left:
cases A to D of the default order, case B with the captures swapped, case D with the clears swapped. -/
def Obligations.DisturbedTakeLosesOrMispairsAFrame : Prop :=
  ∀ (s : State) (s2 : Half), s.ready = 1 → s.procSel = ~~~s.actSel → s2.toNat ≤ s.params.bufSize →
    let ends (l : List Instr) (buf : Bit) (len : Half) (ready : Bit) (left : Half) : Prop :=
      ∃ t, performAll l s = .next t ∧ t.capBuf = buf ∧ t.capLen = len ∧ t.ready = ready ∧ t.length = left ∧
        t.actSel = s.procSel ∧ t.procSel = s.actSel
    ends [.tst, .rxc s2, .capb, .capl, .clrr, .clrl] s.actSel s2 0 0 ∧
    ends [.tst, .capb, .rxc s2, .capl, .clrr, .clrl] s.procSel s2 0 0 ∧
    ends [.tst, .capb, .capl, .rxc s2, .clrr, .clrl] s.procSel s.length 0 0 ∧
    ends [.tst, .capb, .capl, .clrr, .rxc s2, .clrl] s.procSel s.length 1 0 ∧
    ends [.tst, .capl, .rxc s2, .capb, .clrr, .clrl] s.actSel s.length 0 0 ∧
    ends [.tst, .capb, .capl, .clrl, .rxc s2, .clrr] s.procSel s.length 0 s2

/-- 42_sync_consumer.md rule R143: a `TST` that answers 0 changes nothing but the record of responses, and the agent issues no further step. -/
def Obligations.TakeOfNothingChangesNothing : Prop :=
  ∀ (o : TakeOrder) (s : State), s.ready = 0 →
    exec .tst s = .next { s with responses := s.responses ++ [0] } ∧ takeAfterTest o 0 = []

/-- 41_sync_producer.md rule R124, 70_reset_and_hazards.md rule R181: two performed completions with any commands of either port between them but
`CLRR` and a further performed `RXC`. Up to the second, `ready` stays 1; the second changes only what the rule gives it to write: its frame is queued
in the buffer that was active when it arrived, and the first frame's buffer, its bytes untouched, is active again. With nothing
between, the state is what the second alone leaves but for the selectors and the events. The clause that the commands between complete where none is
`RDB`, `CRCM` or `CRCK` is the model's choice (log entries 3, 4): rules R36 and R153 also stop `RDL`, `CRCB` and `CRCR` on a `cap_len` or `crc` that
holds no value, where the model goes on and records the read. -/
def Obligations.OverrunQueuesTheSecondFrame : Prop :=
  ∀ (s : State) (l : List Instr) (n1 n2 : Half), s.procSel = ~~~s.actSel →
    n1.toNat ≤ s.params.bufSize → n2.toNat ≤ s.params.bufSize →
    (∀ i ∈ l, i ≠ .clrr ∧ ∀ n, i = .rxc n → s.params.bufSize < n.toNat) →
    (∀ u, performAll (.rxc n1 :: l) s = .next u →
      u.ready = 1 ∧ u.actSel = ~~~s.actSel ∧ u.procSel = s.actSel ∧
      performAll (.rxc n1 :: l ++ [.rxc n2]) s = .next { u with
        ready := 1, length := n2, procSel := ~~~s.actSel, actSel := s.actSel
        rxArms := s.rxArms ++ [~~~s.actSel, s.actSel] } ∧
      ∀ j, j < 256 → readBuf u s.actSel j = readBuf s s.actSel j) ∧
    ((∀ i ∈ l, ∀ idx, i ≠ .rdb idx ∧ i ≠ .crcm idx ∧ i ≠ .crck idx) →
      ∃ u, performAll (.rxc n1 :: l) s = .next u) ∧
    ∀ v, exec (.rxc n2) s = .next v → performAll [.rxc n1, .rxc n2] s = .next { v with
      procSel := ~~~s.actSel, actSel := s.actSel, rxArms := s.rxArms ++ [~~~s.actSel, s.actSel] }

/-- 70_reset_and_hazards.md rule R183 (marked derived by the spec): the bytes of a buffer that is not active do not change under any commands
of either port until the first `RXW` that follows the next `RXC`. -/
def Obligations.TakenBufferIsStableUntilItIsRefilled : Prop :=
  ∀ (l m : List Instr) (s t : State), (∀ i ∈ l, ∀ n, i ≠ .rxc n) → (∀ i ∈ m, ∀ idx data, i ≠ .rxw idx data) →
    performAll (l ++ m) s = .next t → ∀ j, j < 256 → readBuf t (~~~s.actSel) j = readBuf s (~~~s.actSel) j

/-- 30_encoding.md rule R85, 40_crc.md rules R90, R95: `CRC16 n` leaves in `crc` the CRC of the first `n` bytes of the captured buffer, whatever the
strategy flag and the earlier value of `crc`, and changes nothing else but the responses. -/
def Obligations.Crc16ComputesTheCrcOfTheCapturedBytes : Prop :=
  ∀ (s : State) (bytes : List Byte), bytes.length ≤ s.params.bufSize → s.params.wf = true → s.capBufWritten = true →
    (∀ j, j < bytes.length → readBuf s s.capBuf j = bytes[j]?) →
    performAll (crc16Commands bytes.length) s = .next { s with
      crc := crc16 bytes, crcWritten := true, responses := s.responses ++ List.replicate (bytes.length + 1) 0 }

/-- 30_encoding.md rule R86: the last response of `CHECK L` is 1 exactly when the frame's trailing two bytes are the CRC of the bytes before
them, low byte first. -/
def Obligations.CheckAnswersWhetherTheTrailingBytesAreTheCrc : Prop :=
  ∀ (s : State) (body : List Byte) (lo hi : Byte), body.length + 2 ≤ s.params.bufSize → s.params.wf = true →
    s.capBufWritten = true →
    (∀ j, j < body.length + 2 → readBuf s s.capBuf j = (body ++ [lo, hi])[j]?) →
    performAll (checkCommands (body.length + 2)) s = .next { s with
      crc := crc16 body, crcWritten := true
      responses := s.responses ++ List.replicate (body.length + 1) 0 ++
        [if lo = crcLow (crc16 body) ∧ hi = crcHigh (crc16 body) then 1 else 0] }

/-- 30_encoding.md rule R87: the last response of `APPEND` is the CRC of the bytes given, whatever the state before. -/
def Obligations.AppendAnswersTheCrcOfTheGivenBytes : Prop :=
  ∀ (s : State) (bytes : List Byte), performAll (appendCommands bytes) s = .next { s with
    crc := crc16 bytes, crcWritten := true
    responses := s.responses ++ List.replicate (bytes.length + 1) 0 ++ [crc16 bytes] }
end

