-- ==== Sys2Proof/Laws/PerInstr.lean ====
section
/-! SUPPORT. Per command: its encoded word is an instance of exactly its row of the opcode table, `(w and mask) == match` (30_encoding.md rule R72). -/

namespace Sys2Proof

/-- A format N word. -/
theorem format_N_instance (op : BitVec 8) :
    (op ++ (0 : BitVec 8) ++ (0 : BitVec 16)) &&& Format.mask .N = op ++ (0 : BitVec 24) := by
  ext j hj
  simp only [Format.mask, BitVec.getElem_and, BitVec.getElem_append]
  interval_cases j <;> simp

/-- A format X word. -/
theorem format_X_instance (op idx : BitVec 8) :
    (op ++ idx ++ (0 : BitVec 16)) &&& Format.mask .X = op ++ (0 : BitVec 24) := by
  ext j hj
  simp only [Format.mask, BitVec.getElem_and, BitVec.getElem_append]
  interval_cases j <;> simp

/-- A format D or XD word: `data` in the low byte. -/
theorem format_XD_instance (op idx data : BitVec 8) :
    (op ++ idx ++ data.setWidth 16) &&& Format.mask .XD = op ++ (0 : BitVec 24) := by
  ext j hj
  simp only [Format.mask, BitVec.getElem_and, BitVec.getElem_append, BitVec.getElem_setWidth]
  interval_cases j <;> simp

/-- A format D word. -/
theorem format_D_instance (op data : BitVec 8) :
    (op ++ (0 : BitVec 8) ++ data.setWidth 16) &&& Format.mask .D = op ++ (0 : BitVec 24) := by
  ext j hj
  simp only [Format.mask, BitVec.getElem_and, BitVec.getElem_append, BitVec.getElem_setWidth]
  interval_cases j <;> simp

/-- A format I word. -/
theorem format_I_instance (op : BitVec 8) (size : BitVec 16) :
    (op ++ (0 : BitVec 8) ++ size) &&& Format.mask .I = op ++ (0 : BitVec 24) := by
  ext j hj
  simp only [Format.mask, BitVec.getElem_and, BitVec.getElem_append]
  interval_cases j <;> simp

/-- A format M word. -/
theorem format_M_instance (op : BitVec 8) (mode : BitVec 1) :
    (op ++ (0 : BitVec 8) ++ mode.setWidth 16) &&& Format.mask .M = op ++ (0 : BitVec 24) := by
  ext j hj
  simp only [Format.mask, BitVec.getElem_and, BitVec.getElem_append, BitVec.getElem_setWidth]
  interval_cases j <;> simp

namespace Laws.TableRow

/-- The encoded word has the command's opcode in bits 31..24 and 0 in every other fixed bit of its format. -/
def Statement (i : Instr) : Prop := encode i &&& i.format.mask = i.op ++ (0 : BitVec 24)

theorem tst : Statement .tst := format_N_instance _
theorem capb : Statement .capb := format_N_instance _
theorem capl : Statement .capl := format_N_instance _
theorem clrr : Statement .clrr := format_N_instance _
theorem clrl : Statement .clrl := format_N_instance _
theorem rdb (idx : BitVec 8) : Statement (.rdb idx) := format_X_instance _ idx
theorem rdl : Statement .rdl := format_N_instance _
theorem crci : Statement .crci := format_N_instance _
theorem crcb (data : BitVec 8) : Statement (.crcb data) := format_D_instance _ data
theorem crcm (idx : BitVec 8) : Statement (.crcm idx) := format_X_instance _ idx
theorem crcr : Statement .crcr := format_N_instance _
theorem crck (idx : BitVec 8) : Statement (.crck idx) := format_X_instance _ idx
theorem cfgm (mode : BitVec 1) : Statement (.cfgm mode) := format_M_instance _ mode
theorem rxw (idx data : BitVec 8) : Statement (.rxw idx data) := format_XD_instance _ idx data
theorem rxc (size : BitVec 16) : Statement (.rxc size) := format_I_instance _ size

end Laws.TableRow

end Sys2Proof
end

