-- ==== Sys2Proof/Laws/Decode.lean ====
section
/-! SUPPORT. The fields of a command word and of an encoded command (30_encoding.md rules R71, R79). -/

namespace Sys2Proof

/-- A word built from its three fields. -/
def fieldsWord (op idx : BitVec 8) (imm : BitVec 16) : CommandWord := op ++ idx ++ imm

theorem getLsbD_fieldsWord (op idx : BitVec 8) (imm : BitVec 16) (j : Nat) :
    (fieldsWord op idx imm).getLsbD j =
      if j < 16 then imm.getLsbD j else if j < 24 then idx.getLsbD (j - 16) else op.getLsbD (j - 24) := by
  simp only [fieldsWord, BitVec.getLsbD_append]
  split
  · rfl
  · have h : (j - 16 < 8) ↔ j < 24 := by omega
    simp only [h, show j - 16 - 8 = j - 24 from by omega]

theorem wordOp_fieldsWord (op idx : BitVec 8) (imm : BitVec 16) : wordOp (fieldsWord op idx imm) = op := by
  refine BitVec.eq_of_getLsbD_eq fun j hj => ?_
  simp only [wordOp, BitVec.getLsbD_extractLsb', getLsbD_fieldsWord]
  rw [if_neg (by omega), if_neg (by omega)]
  simp [hj]

theorem wordIdx_fieldsWord (op idx : BitVec 8) (imm : BitVec 16) : wordIdx (fieldsWord op idx imm) = idx := by
  refine BitVec.eq_of_getLsbD_eq fun j hj => ?_
  simp only [wordIdx, BitVec.getLsbD_extractLsb', getLsbD_fieldsWord]
  rw [if_neg (by omega), if_pos (by omega)]
  simp [hj]

theorem wordImm_fieldsWord (op idx : BitVec 8) (imm : BitVec 16) : wordImm (fieldsWord op idx imm) = imm := by
  refine BitVec.eq_of_getLsbD_eq fun j hj => ?_
  simp only [wordImm, BitVec.getLsbD_extractLsb', getLsbD_fieldsWord]
  rw [if_pos (by omega)]
  simp [hj]

/-- The low byte and the low bit of a word are those of its `imm` field. -/
theorem wordData_eq (w : CommandWord) : wordData w = (wordImm w).setWidth 8 := by
  refine BitVec.eq_of_getLsbD_eq fun j hj => ?_
  simp [wordData, wordImm, hj]
  omega

theorem wordMode_eq (w : CommandWord) : wordMode w = (wordImm w).setWidth 1 := by
  refine BitVec.eq_of_getLsbD_eq fun j hj => ?_
  simp [wordMode, wordImm, hj]
  omega

/-- A word is its three fields. -/
theorem fieldsWord_fields (w : CommandWord) : fieldsWord (wordOp w) (wordIdx w) (wordImm w) = w := by
  refine BitVec.eq_of_getLsbD_eq fun j hj => ?_
  simp only [getLsbD_fieldsWord, wordOp, wordIdx, wordImm, BitVec.getLsbD_extractLsb']
  split
  · simp [*]
  · split
    · rw [show 16 + (j - 16) = j from by omega]
      simp only [show j - 16 < 8 from by omega, decide_true, Bool.true_and]
    · rw [show 24 + (j - 24) = j from by omega]
      simp only [show j - 24 < 8 from by omega, decide_true, Bool.true_and]

theorem encode_eq_fieldsWord (i : Instr) : encode i = fieldsWord i.op i.idxField i.immField := rfl

theorem wordOp_encode (i : Instr) : wordOp (encode i) = i.op := wordOp_fieldsWord _ _ _

theorem wordIdx_encode (i : Instr) : wordIdx (encode i) = i.idxField := wordIdx_fieldsWord _ _ _

theorem wordImm_encode (i : Instr) : wordImm (encode i) = i.immField := wordImm_fieldsWord _ _ _

/-- Widening and narrowing again gives the value back. -/
theorem setWidth_setWidth_of_le {n m : Nat} (h : n ≤ m) (x : BitVec n) : (x.setWidth m).setWidth n = x := by
  refine BitVec.eq_of_getLsbD_eq fun j hj => ?_
  simp only [BitVec.getLsbD_setWidth, hj, show j < m from by omega, decide_true, Bool.true_and]

/-- Every command has its row in the opcode map, with its format, and the row builds the command from its word. -/
theorem row_of_instr (i : Instr) : ∃ r, opcodeRows.find? (fun r => r.op == i.op) = some r ∧
    r.op = i.op ∧ r.format = i.format ∧ r.build (encode i) = i := by
  cases i <;> refine ⟨_, rfl, rfl, rfl, ?_⟩ <;>
    simp only [wordIdx_encode, wordImm_encode, wordData_eq, wordMode_eq, Instr.idxField, Instr.immField,
      setWidth_setWidth_of_le, show 8 ≤ 16 from by decide, show 1 ≤ 16 from by decide]

/-! ## The port of each command (rules R74, R76) -/

@[simp] theorem port_tst : Instr.tst.port = .consumer :=
  (by decide : opPort 0x01 = .consumer)
@[simp] theorem port_capb : Instr.capb.port = .consumer :=
  (by decide : opPort 0x02 = .consumer)
@[simp] theorem port_capl : Instr.capl.port = .consumer :=
  (by decide : opPort 0x03 = .consumer)
@[simp] theorem port_clrr : Instr.clrr.port = .consumer :=
  (by decide : opPort 0x04 = .consumer)
@[simp] theorem port_clrl : Instr.clrl.port = .consumer :=
  (by decide : opPort 0x05 = .consumer)
@[simp] theorem port_rdb (idx : BitVec 8) : (Instr.rdb idx).port = .consumer :=
  (by decide : opPort 0x06 = .consumer)
@[simp] theorem port_rdl : Instr.rdl.port = .consumer :=
  (by decide : opPort 0x07 = .consumer)
@[simp] theorem port_crci : Instr.crci.port = .consumer :=
  (by decide : opPort 0x10 = .consumer)
@[simp] theorem port_crcb (data : BitVec 8) : (Instr.crcb data).port = .consumer :=
  (by decide : opPort 0x11 = .consumer)
@[simp] theorem port_crcm (idx : BitVec 8) : (Instr.crcm idx).port = .consumer :=
  (by decide : opPort 0x12 = .consumer)
@[simp] theorem port_crcr : Instr.crcr.port = .consumer :=
  (by decide : opPort 0x13 = .consumer)
@[simp] theorem port_crck (idx : BitVec 8) : (Instr.crck idx).port = .consumer :=
  (by decide : opPort 0x14 = .consumer)
@[simp] theorem port_cfgm (mode : BitVec 1) : (Instr.cfgm mode).port = .consumer :=
  (by decide : opPort 0x15 = .consumer)
@[simp] theorem port_rxw (idx data : BitVec 8) : (Instr.rxw idx data).port = .producer :=
  (by decide : opPort 0x80 = .producer)
@[simp] theorem port_rxc (size : BitVec 16) : (Instr.rxc size).port = .producer :=
  (by decide : opPort 0x81 = .producer)

end Sys2Proof
end

