-- ==== Sys2Proof/Laws/State.lean ====
section
/-! SUPPORT. What each update of the state does to each field: one lemma per field per update. -/

namespace Sys2Proof.Machine

@[simp] theorem writeBuf_params (k : Bit) (i : Nat) (v : Byte) (s : State) :
    (writeBuf k i v s).params = s.params := rfl
@[simp] theorem writeBuf_mem (k : Bit) (i : Nat) (v : Byte) (s : State) :
    (writeBuf k i v s).mem = Memory.write s.mem (bufAddr k i) v := rfl
@[simp] theorem writeBuf_actSel (k : Bit) (i : Nat) (v : Byte) (s : State) :
    (writeBuf k i v s).actSel = s.actSel := rfl
@[simp] theorem writeBuf_procSel (k : Bit) (i : Nat) (v : Byte) (s : State) :
    (writeBuf k i v s).procSel = s.procSel := rfl
@[simp] theorem writeBuf_length (k : Bit) (i : Nat) (v : Byte) (s : State) :
    (writeBuf k i v s).length = s.length := rfl
@[simp] theorem writeBuf_ready (k : Bit) (i : Nat) (v : Byte) (s : State) :
    (writeBuf k i v s).ready = s.ready := rfl
@[simp] theorem writeBuf_capBuf (k : Bit) (i : Nat) (v : Byte) (s : State) :
    (writeBuf k i v s).capBuf = s.capBuf := rfl
@[simp] theorem writeBuf_capLen (k : Bit) (i : Nat) (v : Byte) (s : State) :
    (writeBuf k i v s).capLen = s.capLen := rfl
@[simp] theorem writeBuf_crc (k : Bit) (i : Nat) (v : Byte) (s : State) :
    (writeBuf k i v s).crc = s.crc := rfl
@[simp] theorem writeBuf_crcMode (k : Bit) (i : Nat) (v : Byte) (s : State) :
    (writeBuf k i v s).crcMode = s.crcMode := rfl
@[simp] theorem writeBuf_pFault (k : Bit) (i : Nat) (v : Byte) (s : State) :
    (writeBuf k i v s).pFault = s.pFault := rfl
@[simp] theorem writeBuf_cFault (k : Bit) (i : Nat) (v : Byte) (s : State) :
    (writeBuf k i v s).cFault = s.cFault := rfl
@[simp] theorem writeBuf_capBufWritten (k : Bit) (i : Nat) (v : Byte) (s : State) :
    (writeBuf k i v s).capBufWritten = s.capBufWritten := rfl
@[simp] theorem writeBuf_capLenWritten (k : Bit) (i : Nat) (v : Byte) (s : State) :
    (writeBuf k i v s).capLenWritten = s.capLenWritten := rfl
@[simp] theorem writeBuf_crcWritten (k : Bit) (i : Nat) (v : Byte) (s : State) :
    (writeBuf k i v s).crcWritten = s.crcWritten := rfl
@[simp] theorem writeBuf_readUnwritten (k : Bit) (i : Nat) (v : Byte) (s : State) :
    (writeBuf k i v s).readUnwritten = s.readUnwritten := rfl
@[simp] theorem writeBuf_inputs (k : Bit) (i : Nat) (v : Byte) (s : State) :
    (writeBuf k i v s).inputs = s.inputs := rfl
@[simp] theorem writeBuf_responses (k : Bit) (i : Nat) (v : Byte) (s : State) :
    (writeBuf k i v s).responses = s.responses := rfl
@[simp] theorem writeBuf_rxArms (k : Bit) (i : Nat) (v : Byte) (s : State) :
    (writeBuf k i v s).rxArms = s.rxArms := rfl
@[simp] theorem writeBuf_resets (k : Bit) (i : Nat) (v : Byte) (s : State) :
    (writeBuf k i v s).resets = s.resets := rfl

@[simp] theorem setRoles_params (a p : Bit) (s : State) :
    (setRoles a p s).params = s.params := rfl
@[simp] theorem setRoles_mem (a p : Bit) (s : State) :
    (setRoles a p s).mem = s.mem := rfl
@[simp] theorem setRoles_actSel (a p : Bit) (s : State) :
    (setRoles a p s).actSel = a := rfl
@[simp] theorem setRoles_procSel (a p : Bit) (s : State) :
    (setRoles a p s).procSel = p := rfl
@[simp] theorem setRoles_length (a p : Bit) (s : State) :
    (setRoles a p s).length = s.length := rfl
@[simp] theorem setRoles_ready (a p : Bit) (s : State) :
    (setRoles a p s).ready = s.ready := rfl
@[simp] theorem setRoles_capBuf (a p : Bit) (s : State) :
    (setRoles a p s).capBuf = s.capBuf := rfl
@[simp] theorem setRoles_capLen (a p : Bit) (s : State) :
    (setRoles a p s).capLen = s.capLen := rfl
@[simp] theorem setRoles_crc (a p : Bit) (s : State) :
    (setRoles a p s).crc = s.crc := rfl
@[simp] theorem setRoles_crcMode (a p : Bit) (s : State) :
    (setRoles a p s).crcMode = s.crcMode := rfl
@[simp] theorem setRoles_pFault (a p : Bit) (s : State) :
    (setRoles a p s).pFault = s.pFault := rfl
@[simp] theorem setRoles_cFault (a p : Bit) (s : State) :
    (setRoles a p s).cFault = s.cFault := rfl
@[simp] theorem setRoles_capBufWritten (a p : Bit) (s : State) :
    (setRoles a p s).capBufWritten = s.capBufWritten := rfl
@[simp] theorem setRoles_capLenWritten (a p : Bit) (s : State) :
    (setRoles a p s).capLenWritten = s.capLenWritten := rfl
@[simp] theorem setRoles_crcWritten (a p : Bit) (s : State) :
    (setRoles a p s).crcWritten = s.crcWritten := rfl
@[simp] theorem setRoles_readUnwritten (a p : Bit) (s : State) :
    (setRoles a p s).readUnwritten = s.readUnwritten := rfl
@[simp] theorem setRoles_inputs (a p : Bit) (s : State) :
    (setRoles a p s).inputs = s.inputs := rfl
@[simp] theorem setRoles_responses (a p : Bit) (s : State) :
    (setRoles a p s).responses = s.responses := rfl
@[simp] theorem setRoles_rxArms (a p : Bit) (s : State) :
    (setRoles a p s).rxArms = s.rxArms := rfl
@[simp] theorem setRoles_resets (a p : Bit) (s : State) :
    (setRoles a p s).resets = s.resets := rfl

@[simp] theorem setLength_params (v : Half) (s : State) :
    (setLength v s).params = s.params := rfl
@[simp] theorem setLength_mem (v : Half) (s : State) :
    (setLength v s).mem = s.mem := rfl
@[simp] theorem setLength_actSel (v : Half) (s : State) :
    (setLength v s).actSel = s.actSel := rfl
@[simp] theorem setLength_procSel (v : Half) (s : State) :
    (setLength v s).procSel = s.procSel := rfl
@[simp] theorem setLength_length (v : Half) (s : State) :
    (setLength v s).length = v := rfl
@[simp] theorem setLength_ready (v : Half) (s : State) :
    (setLength v s).ready = s.ready := rfl
@[simp] theorem setLength_capBuf (v : Half) (s : State) :
    (setLength v s).capBuf = s.capBuf := rfl
@[simp] theorem setLength_capLen (v : Half) (s : State) :
    (setLength v s).capLen = s.capLen := rfl
@[simp] theorem setLength_crc (v : Half) (s : State) :
    (setLength v s).crc = s.crc := rfl
@[simp] theorem setLength_crcMode (v : Half) (s : State) :
    (setLength v s).crcMode = s.crcMode := rfl
@[simp] theorem setLength_pFault (v : Half) (s : State) :
    (setLength v s).pFault = s.pFault := rfl
@[simp] theorem setLength_cFault (v : Half) (s : State) :
    (setLength v s).cFault = s.cFault := rfl
@[simp] theorem setLength_capBufWritten (v : Half) (s : State) :
    (setLength v s).capBufWritten = s.capBufWritten := rfl
@[simp] theorem setLength_capLenWritten (v : Half) (s : State) :
    (setLength v s).capLenWritten = s.capLenWritten := rfl
@[simp] theorem setLength_crcWritten (v : Half) (s : State) :
    (setLength v s).crcWritten = s.crcWritten := rfl
@[simp] theorem setLength_readUnwritten (v : Half) (s : State) :
    (setLength v s).readUnwritten = s.readUnwritten := rfl
@[simp] theorem setLength_inputs (v : Half) (s : State) :
    (setLength v s).inputs = s.inputs := rfl
@[simp] theorem setLength_responses (v : Half) (s : State) :
    (setLength v s).responses = s.responses := rfl
@[simp] theorem setLength_rxArms (v : Half) (s : State) :
    (setLength v s).rxArms = s.rxArms := rfl
@[simp] theorem setLength_resets (v : Half) (s : State) :
    (setLength v s).resets = s.resets := rfl

@[simp] theorem setCapBuf_params (k : Bit) (s : State) :
    (setCapBuf k s).params = s.params := rfl
@[simp] theorem setCapBuf_mem (k : Bit) (s : State) :
    (setCapBuf k s).mem = s.mem := rfl
@[simp] theorem setCapBuf_actSel (k : Bit) (s : State) :
    (setCapBuf k s).actSel = s.actSel := rfl
@[simp] theorem setCapBuf_procSel (k : Bit) (s : State) :
    (setCapBuf k s).procSel = s.procSel := rfl
@[simp] theorem setCapBuf_length (k : Bit) (s : State) :
    (setCapBuf k s).length = s.length := rfl
@[simp] theorem setCapBuf_ready (k : Bit) (s : State) :
    (setCapBuf k s).ready = s.ready := rfl
@[simp] theorem setCapBuf_capBuf (k : Bit) (s : State) :
    (setCapBuf k s).capBuf = k := rfl
@[simp] theorem setCapBuf_capLen (k : Bit) (s : State) :
    (setCapBuf k s).capLen = s.capLen := rfl
@[simp] theorem setCapBuf_crc (k : Bit) (s : State) :
    (setCapBuf k s).crc = s.crc := rfl
@[simp] theorem setCapBuf_crcMode (k : Bit) (s : State) :
    (setCapBuf k s).crcMode = s.crcMode := rfl
@[simp] theorem setCapBuf_pFault (k : Bit) (s : State) :
    (setCapBuf k s).pFault = s.pFault := rfl
@[simp] theorem setCapBuf_cFault (k : Bit) (s : State) :
    (setCapBuf k s).cFault = s.cFault := rfl
@[simp] theorem setCapBuf_capBufWritten (k : Bit) (s : State) :
    (setCapBuf k s).capBufWritten = true := rfl
@[simp] theorem setCapBuf_capLenWritten (k : Bit) (s : State) :
    (setCapBuf k s).capLenWritten = s.capLenWritten := rfl
@[simp] theorem setCapBuf_crcWritten (k : Bit) (s : State) :
    (setCapBuf k s).crcWritten = s.crcWritten := rfl
@[simp] theorem setCapBuf_readUnwritten (k : Bit) (s : State) :
    (setCapBuf k s).readUnwritten = s.readUnwritten := rfl
@[simp] theorem setCapBuf_inputs (k : Bit) (s : State) :
    (setCapBuf k s).inputs = s.inputs := rfl
@[simp] theorem setCapBuf_responses (k : Bit) (s : State) :
    (setCapBuf k s).responses = s.responses := rfl
@[simp] theorem setCapBuf_rxArms (k : Bit) (s : State) :
    (setCapBuf k s).rxArms = s.rxArms := rfl
@[simp] theorem setCapBuf_resets (k : Bit) (s : State) :
    (setCapBuf k s).resets = s.resets := rfl

@[simp] theorem setCapLen_params (v : Half) (s : State) :
    (setCapLen v s).params = s.params := rfl
@[simp] theorem setCapLen_mem (v : Half) (s : State) :
    (setCapLen v s).mem = s.mem := rfl
@[simp] theorem setCapLen_actSel (v : Half) (s : State) :
    (setCapLen v s).actSel = s.actSel := rfl
@[simp] theorem setCapLen_procSel (v : Half) (s : State) :
    (setCapLen v s).procSel = s.procSel := rfl
@[simp] theorem setCapLen_length (v : Half) (s : State) :
    (setCapLen v s).length = s.length := rfl
@[simp] theorem setCapLen_ready (v : Half) (s : State) :
    (setCapLen v s).ready = s.ready := rfl
@[simp] theorem setCapLen_capBuf (v : Half) (s : State) :
    (setCapLen v s).capBuf = s.capBuf := rfl
@[simp] theorem setCapLen_capLen (v : Half) (s : State) :
    (setCapLen v s).capLen = v := rfl
@[simp] theorem setCapLen_crc (v : Half) (s : State) :
    (setCapLen v s).crc = s.crc := rfl
@[simp] theorem setCapLen_crcMode (v : Half) (s : State) :
    (setCapLen v s).crcMode = s.crcMode := rfl
@[simp] theorem setCapLen_pFault (v : Half) (s : State) :
    (setCapLen v s).pFault = s.pFault := rfl
@[simp] theorem setCapLen_cFault (v : Half) (s : State) :
    (setCapLen v s).cFault = s.cFault := rfl
@[simp] theorem setCapLen_capBufWritten (v : Half) (s : State) :
    (setCapLen v s).capBufWritten = s.capBufWritten := rfl
@[simp] theorem setCapLen_capLenWritten (v : Half) (s : State) :
    (setCapLen v s).capLenWritten = true := rfl
@[simp] theorem setCapLen_crcWritten (v : Half) (s : State) :
    (setCapLen v s).crcWritten = s.crcWritten := rfl
@[simp] theorem setCapLen_readUnwritten (v : Half) (s : State) :
    (setCapLen v s).readUnwritten = s.readUnwritten := rfl
@[simp] theorem setCapLen_inputs (v : Half) (s : State) :
    (setCapLen v s).inputs = s.inputs := rfl
@[simp] theorem setCapLen_responses (v : Half) (s : State) :
    (setCapLen v s).responses = s.responses := rfl
@[simp] theorem setCapLen_rxArms (v : Half) (s : State) :
    (setCapLen v s).rxArms = s.rxArms := rfl
@[simp] theorem setCapLen_resets (v : Half) (s : State) :
    (setCapLen v s).resets = s.resets := rfl

@[simp] theorem setCrc_params (v : Half) (s : State) :
    (setCrc v s).params = s.params := rfl
@[simp] theorem setCrc_mem (v : Half) (s : State) :
    (setCrc v s).mem = s.mem := rfl
@[simp] theorem setCrc_actSel (v : Half) (s : State) :
    (setCrc v s).actSel = s.actSel := rfl
@[simp] theorem setCrc_procSel (v : Half) (s : State) :
    (setCrc v s).procSel = s.procSel := rfl
@[simp] theorem setCrc_length (v : Half) (s : State) :
    (setCrc v s).length = s.length := rfl
@[simp] theorem setCrc_ready (v : Half) (s : State) :
    (setCrc v s).ready = s.ready := rfl
@[simp] theorem setCrc_capBuf (v : Half) (s : State) :
    (setCrc v s).capBuf = s.capBuf := rfl
@[simp] theorem setCrc_capLen (v : Half) (s : State) :
    (setCrc v s).capLen = s.capLen := rfl
@[simp] theorem setCrc_crc (v : Half) (s : State) :
    (setCrc v s).crc = v := rfl
@[simp] theorem setCrc_crcMode (v : Half) (s : State) :
    (setCrc v s).crcMode = s.crcMode := rfl
@[simp] theorem setCrc_pFault (v : Half) (s : State) :
    (setCrc v s).pFault = s.pFault := rfl
@[simp] theorem setCrc_cFault (v : Half) (s : State) :
    (setCrc v s).cFault = s.cFault := rfl
@[simp] theorem setCrc_capBufWritten (v : Half) (s : State) :
    (setCrc v s).capBufWritten = s.capBufWritten := rfl
@[simp] theorem setCrc_capLenWritten (v : Half) (s : State) :
    (setCrc v s).capLenWritten = s.capLenWritten := rfl
@[simp] theorem setCrc_crcWritten (v : Half) (s : State) :
    (setCrc v s).crcWritten = s.crcWritten := rfl
@[simp] theorem setCrc_readUnwritten (v : Half) (s : State) :
    (setCrc v s).readUnwritten = s.readUnwritten := rfl
@[simp] theorem setCrc_inputs (v : Half) (s : State) :
    (setCrc v s).inputs = s.inputs := rfl
@[simp] theorem setCrc_responses (v : Half) (s : State) :
    (setCrc v s).responses = s.responses := rfl
@[simp] theorem setCrc_rxArms (v : Half) (s : State) :
    (setCrc v s).rxArms = s.rxArms := rfl
@[simp] theorem setCrc_resets (v : Half) (s : State) :
    (setCrc v s).resets = s.resets := rfl

@[simp] theorem startCrc_params (v : Half) (s : State) :
    (startCrc v s).params = s.params := rfl
@[simp] theorem startCrc_mem (v : Half) (s : State) :
    (startCrc v s).mem = s.mem := rfl
@[simp] theorem startCrc_actSel (v : Half) (s : State) :
    (startCrc v s).actSel = s.actSel := rfl
@[simp] theorem startCrc_procSel (v : Half) (s : State) :
    (startCrc v s).procSel = s.procSel := rfl
@[simp] theorem startCrc_length (v : Half) (s : State) :
    (startCrc v s).length = s.length := rfl
@[simp] theorem startCrc_ready (v : Half) (s : State) :
    (startCrc v s).ready = s.ready := rfl
@[simp] theorem startCrc_capBuf (v : Half) (s : State) :
    (startCrc v s).capBuf = s.capBuf := rfl
@[simp] theorem startCrc_capLen (v : Half) (s : State) :
    (startCrc v s).capLen = s.capLen := rfl
@[simp] theorem startCrc_crc (v : Half) (s : State) :
    (startCrc v s).crc = v := rfl
@[simp] theorem startCrc_crcMode (v : Half) (s : State) :
    (startCrc v s).crcMode = s.crcMode := rfl
@[simp] theorem startCrc_pFault (v : Half) (s : State) :
    (startCrc v s).pFault = s.pFault := rfl
@[simp] theorem startCrc_cFault (v : Half) (s : State) :
    (startCrc v s).cFault = s.cFault := rfl
@[simp] theorem startCrc_capBufWritten (v : Half) (s : State) :
    (startCrc v s).capBufWritten = s.capBufWritten := rfl
@[simp] theorem startCrc_capLenWritten (v : Half) (s : State) :
    (startCrc v s).capLenWritten = s.capLenWritten := rfl
@[simp] theorem startCrc_crcWritten (v : Half) (s : State) :
    (startCrc v s).crcWritten = true := rfl
@[simp] theorem startCrc_readUnwritten (v : Half) (s : State) :
    (startCrc v s).readUnwritten = s.readUnwritten := rfl
@[simp] theorem startCrc_inputs (v : Half) (s : State) :
    (startCrc v s).inputs = s.inputs := rfl
@[simp] theorem startCrc_responses (v : Half) (s : State) :
    (startCrc v s).responses = s.responses := rfl
@[simp] theorem startCrc_rxArms (v : Half) (s : State) :
    (startCrc v s).rxArms = s.rxArms := rfl
@[simp] theorem startCrc_resets (v : Half) (s : State) :
    (startCrc v s).resets = s.resets := rfl

@[simp] theorem setCrcMode_params (m : Bit) (s : State) :
    (setCrcMode m s).params = s.params := rfl
@[simp] theorem setCrcMode_mem (m : Bit) (s : State) :
    (setCrcMode m s).mem = s.mem := rfl
@[simp] theorem setCrcMode_actSel (m : Bit) (s : State) :
    (setCrcMode m s).actSel = s.actSel := rfl
@[simp] theorem setCrcMode_procSel (m : Bit) (s : State) :
    (setCrcMode m s).procSel = s.procSel := rfl
@[simp] theorem setCrcMode_length (m : Bit) (s : State) :
    (setCrcMode m s).length = s.length := rfl
@[simp] theorem setCrcMode_ready (m : Bit) (s : State) :
    (setCrcMode m s).ready = s.ready := rfl
@[simp] theorem setCrcMode_capBuf (m : Bit) (s : State) :
    (setCrcMode m s).capBuf = s.capBuf := rfl
@[simp] theorem setCrcMode_capLen (m : Bit) (s : State) :
    (setCrcMode m s).capLen = s.capLen := rfl
@[simp] theorem setCrcMode_crc (m : Bit) (s : State) :
    (setCrcMode m s).crc = s.crc := rfl
@[simp] theorem setCrcMode_crcMode (m : Bit) (s : State) :
    (setCrcMode m s).crcMode = m := rfl
@[simp] theorem setCrcMode_pFault (m : Bit) (s : State) :
    (setCrcMode m s).pFault = s.pFault := rfl
@[simp] theorem setCrcMode_cFault (m : Bit) (s : State) :
    (setCrcMode m s).cFault = s.cFault := rfl
@[simp] theorem setCrcMode_capBufWritten (m : Bit) (s : State) :
    (setCrcMode m s).capBufWritten = s.capBufWritten := rfl
@[simp] theorem setCrcMode_capLenWritten (m : Bit) (s : State) :
    (setCrcMode m s).capLenWritten = s.capLenWritten := rfl
@[simp] theorem setCrcMode_crcWritten (m : Bit) (s : State) :
    (setCrcMode m s).crcWritten = s.crcWritten := rfl
@[simp] theorem setCrcMode_readUnwritten (m : Bit) (s : State) :
    (setCrcMode m s).readUnwritten = s.readUnwritten := rfl
@[simp] theorem setCrcMode_inputs (m : Bit) (s : State) :
    (setCrcMode m s).inputs = s.inputs := rfl
@[simp] theorem setCrcMode_responses (m : Bit) (s : State) :
    (setCrcMode m s).responses = s.responses := rfl
@[simp] theorem setCrcMode_rxArms (m : Bit) (s : State) :
    (setCrcMode m s).rxArms = s.rxArms := rfl
@[simp] theorem setCrcMode_resets (m : Bit) (s : State) :
    (setCrcMode m s).resets = s.resets := rfl

@[simp] theorem setReady_params (s : State) :
    (setReady s).params = s.params := rfl
@[simp] theorem setReady_mem (s : State) :
    (setReady s).mem = s.mem := rfl
@[simp] theorem setReady_actSel (s : State) :
    (setReady s).actSel = s.actSel := rfl
@[simp] theorem setReady_procSel (s : State) :
    (setReady s).procSel = s.procSel := rfl
@[simp] theorem setReady_length (s : State) :
    (setReady s).length = s.length := rfl
@[simp] theorem setReady_ready (s : State) :
    (setReady s).ready = 1 := rfl
@[simp] theorem setReady_capBuf (s : State) :
    (setReady s).capBuf = s.capBuf := rfl
@[simp] theorem setReady_capLen (s : State) :
    (setReady s).capLen = s.capLen := rfl
@[simp] theorem setReady_crc (s : State) :
    (setReady s).crc = s.crc := rfl
@[simp] theorem setReady_crcMode (s : State) :
    (setReady s).crcMode = s.crcMode := rfl
@[simp] theorem setReady_pFault (s : State) :
    (setReady s).pFault = s.pFault := rfl
@[simp] theorem setReady_cFault (s : State) :
    (setReady s).cFault = s.cFault := rfl
@[simp] theorem setReady_capBufWritten (s : State) :
    (setReady s).capBufWritten = s.capBufWritten := rfl
@[simp] theorem setReady_capLenWritten (s : State) :
    (setReady s).capLenWritten = s.capLenWritten := rfl
@[simp] theorem setReady_crcWritten (s : State) :
    (setReady s).crcWritten = s.crcWritten := rfl
@[simp] theorem setReady_readUnwritten (s : State) :
    (setReady s).readUnwritten = s.readUnwritten := rfl
@[simp] theorem setReady_inputs (s : State) :
    (setReady s).inputs = s.inputs := rfl
@[simp] theorem setReady_responses (s : State) :
    (setReady s).responses = s.responses := rfl
@[simp] theorem setReady_rxArms (s : State) :
    (setReady s).rxArms = s.rxArms := rfl
@[simp] theorem setReady_resets (s : State) :
    (setReady s).resets = s.resets := rfl

@[simp] theorem clearReady_params (s : State) :
    (clearReady s).params = s.params := rfl
@[simp] theorem clearReady_mem (s : State) :
    (clearReady s).mem = s.mem := rfl
@[simp] theorem clearReady_actSel (s : State) :
    (clearReady s).actSel = s.actSel := rfl
@[simp] theorem clearReady_procSel (s : State) :
    (clearReady s).procSel = s.procSel := rfl
@[simp] theorem clearReady_length (s : State) :
    (clearReady s).length = s.length := rfl
@[simp] theorem clearReady_ready (s : State) :
    (clearReady s).ready = 0 := rfl
@[simp] theorem clearReady_capBuf (s : State) :
    (clearReady s).capBuf = s.capBuf := rfl
@[simp] theorem clearReady_capLen (s : State) :
    (clearReady s).capLen = s.capLen := rfl
@[simp] theorem clearReady_crc (s : State) :
    (clearReady s).crc = s.crc := rfl
@[simp] theorem clearReady_crcMode (s : State) :
    (clearReady s).crcMode = s.crcMode := rfl
@[simp] theorem clearReady_pFault (s : State) :
    (clearReady s).pFault = s.pFault := rfl
@[simp] theorem clearReady_cFault (s : State) :
    (clearReady s).cFault = s.cFault := rfl
@[simp] theorem clearReady_capBufWritten (s : State) :
    (clearReady s).capBufWritten = s.capBufWritten := rfl
@[simp] theorem clearReady_capLenWritten (s : State) :
    (clearReady s).capLenWritten = s.capLenWritten := rfl
@[simp] theorem clearReady_crcWritten (s : State) :
    (clearReady s).crcWritten = s.crcWritten := rfl
@[simp] theorem clearReady_readUnwritten (s : State) :
    (clearReady s).readUnwritten = s.readUnwritten := rfl
@[simp] theorem clearReady_inputs (s : State) :
    (clearReady s).inputs = s.inputs := rfl
@[simp] theorem clearReady_responses (s : State) :
    (clearReady s).responses = s.responses := rfl
@[simp] theorem clearReady_rxArms (s : State) :
    (clearReady s).rxArms = s.rxArms := rfl
@[simp] theorem clearReady_resets (s : State) :
    (clearReady s).resets = s.resets := rfl

@[simp] theorem noteRead_params (b : Bool) (s : State) :
    (noteRead b s).params = s.params := rfl
@[simp] theorem noteRead_mem (b : Bool) (s : State) :
    (noteRead b s).mem = s.mem := rfl
@[simp] theorem noteRead_actSel (b : Bool) (s : State) :
    (noteRead b s).actSel = s.actSel := rfl
@[simp] theorem noteRead_procSel (b : Bool) (s : State) :
    (noteRead b s).procSel = s.procSel := rfl
@[simp] theorem noteRead_length (b : Bool) (s : State) :
    (noteRead b s).length = s.length := rfl
@[simp] theorem noteRead_ready (b : Bool) (s : State) :
    (noteRead b s).ready = s.ready := rfl
@[simp] theorem noteRead_capBuf (b : Bool) (s : State) :
    (noteRead b s).capBuf = s.capBuf := rfl
@[simp] theorem noteRead_capLen (b : Bool) (s : State) :
    (noteRead b s).capLen = s.capLen := rfl
@[simp] theorem noteRead_crc (b : Bool) (s : State) :
    (noteRead b s).crc = s.crc := rfl
@[simp] theorem noteRead_crcMode (b : Bool) (s : State) :
    (noteRead b s).crcMode = s.crcMode := rfl
@[simp] theorem noteRead_pFault (b : Bool) (s : State) :
    (noteRead b s).pFault = s.pFault := rfl
@[simp] theorem noteRead_cFault (b : Bool) (s : State) :
    (noteRead b s).cFault = s.cFault := rfl
@[simp] theorem noteRead_capBufWritten (b : Bool) (s : State) :
    (noteRead b s).capBufWritten = s.capBufWritten := rfl
@[simp] theorem noteRead_capLenWritten (b : Bool) (s : State) :
    (noteRead b s).capLenWritten = s.capLenWritten := rfl
@[simp] theorem noteRead_crcWritten (b : Bool) (s : State) :
    (noteRead b s).crcWritten = s.crcWritten := rfl
@[simp] theorem noteRead_readUnwritten (b : Bool) (s : State) :
    (noteRead b s).readUnwritten = (s.readUnwritten || !b) := rfl
@[simp] theorem noteRead_inputs (b : Bool) (s : State) :
    (noteRead b s).inputs = s.inputs := rfl
@[simp] theorem noteRead_responses (b : Bool) (s : State) :
    (noteRead b s).responses = s.responses := rfl
@[simp] theorem noteRead_rxArms (b : Bool) (s : State) :
    (noteRead b s).rxArms = s.rxArms := rfl
@[simp] theorem noteRead_resets (b : Bool) (s : State) :
    (noteRead b s).resets = s.resets := rfl

@[simp] theorem respond_params (r : Half) (s : State) :
    (respond r s).params = s.params := rfl
@[simp] theorem respond_mem (r : Half) (s : State) :
    (respond r s).mem = s.mem := rfl
@[simp] theorem respond_actSel (r : Half) (s : State) :
    (respond r s).actSel = s.actSel := rfl
@[simp] theorem respond_procSel (r : Half) (s : State) :
    (respond r s).procSel = s.procSel := rfl
@[simp] theorem respond_length (r : Half) (s : State) :
    (respond r s).length = s.length := rfl
@[simp] theorem respond_ready (r : Half) (s : State) :
    (respond r s).ready = s.ready := rfl
@[simp] theorem respond_capBuf (r : Half) (s : State) :
    (respond r s).capBuf = s.capBuf := rfl
@[simp] theorem respond_capLen (r : Half) (s : State) :
    (respond r s).capLen = s.capLen := rfl
@[simp] theorem respond_crc (r : Half) (s : State) :
    (respond r s).crc = s.crc := rfl
@[simp] theorem respond_crcMode (r : Half) (s : State) :
    (respond r s).crcMode = s.crcMode := rfl
@[simp] theorem respond_pFault (r : Half) (s : State) :
    (respond r s).pFault = s.pFault := rfl
@[simp] theorem respond_cFault (r : Half) (s : State) :
    (respond r s).cFault = s.cFault := rfl
@[simp] theorem respond_capBufWritten (r : Half) (s : State) :
    (respond r s).capBufWritten = s.capBufWritten := rfl
@[simp] theorem respond_capLenWritten (r : Half) (s : State) :
    (respond r s).capLenWritten = s.capLenWritten := rfl
@[simp] theorem respond_crcWritten (r : Half) (s : State) :
    (respond r s).crcWritten = s.crcWritten := rfl
@[simp] theorem respond_readUnwritten (r : Half) (s : State) :
    (respond r s).readUnwritten = s.readUnwritten := rfl
@[simp] theorem respond_inputs (r : Half) (s : State) :
    (respond r s).inputs = s.inputs := rfl
@[simp] theorem respond_responses (r : Half) (s : State) :
    (respond r s).responses = s.responses ++ [r] := rfl
@[simp] theorem respond_rxArms (r : Half) (s : State) :
    (respond r s).rxArms = s.rxArms := rfl
@[simp] theorem respond_resets (r : Half) (s : State) :
    (respond r s).resets = s.resets := rfl

@[simp] theorem emitRxArm_params (k : Bit) (s : State) :
    (emitRxArm k s).params = s.params := rfl
@[simp] theorem emitRxArm_mem (k : Bit) (s : State) :
    (emitRxArm k s).mem = s.mem := rfl
@[simp] theorem emitRxArm_actSel (k : Bit) (s : State) :
    (emitRxArm k s).actSel = s.actSel := rfl
@[simp] theorem emitRxArm_procSel (k : Bit) (s : State) :
    (emitRxArm k s).procSel = s.procSel := rfl
@[simp] theorem emitRxArm_length (k : Bit) (s : State) :
    (emitRxArm k s).length = s.length := rfl
@[simp] theorem emitRxArm_ready (k : Bit) (s : State) :
    (emitRxArm k s).ready = s.ready := rfl
@[simp] theorem emitRxArm_capBuf (k : Bit) (s : State) :
    (emitRxArm k s).capBuf = s.capBuf := rfl
@[simp] theorem emitRxArm_capLen (k : Bit) (s : State) :
    (emitRxArm k s).capLen = s.capLen := rfl
@[simp] theorem emitRxArm_crc (k : Bit) (s : State) :
    (emitRxArm k s).crc = s.crc := rfl
@[simp] theorem emitRxArm_crcMode (k : Bit) (s : State) :
    (emitRxArm k s).crcMode = s.crcMode := rfl
@[simp] theorem emitRxArm_pFault (k : Bit) (s : State) :
    (emitRxArm k s).pFault = s.pFault := rfl
@[simp] theorem emitRxArm_cFault (k : Bit) (s : State) :
    (emitRxArm k s).cFault = s.cFault := rfl
@[simp] theorem emitRxArm_capBufWritten (k : Bit) (s : State) :
    (emitRxArm k s).capBufWritten = s.capBufWritten := rfl
@[simp] theorem emitRxArm_capLenWritten (k : Bit) (s : State) :
    (emitRxArm k s).capLenWritten = s.capLenWritten := rfl
@[simp] theorem emitRxArm_crcWritten (k : Bit) (s : State) :
    (emitRxArm k s).crcWritten = s.crcWritten := rfl
@[simp] theorem emitRxArm_readUnwritten (k : Bit) (s : State) :
    (emitRxArm k s).readUnwritten = s.readUnwritten := rfl
@[simp] theorem emitRxArm_inputs (k : Bit) (s : State) :
    (emitRxArm k s).inputs = s.inputs := rfl
@[simp] theorem emitRxArm_responses (k : Bit) (s : State) :
    (emitRxArm k s).responses = s.responses := rfl
@[simp] theorem emitRxArm_rxArms (k : Bit) (s : State) :
    (emitRxArm k s).rxArms = s.rxArms ++ [k] := rfl
@[simp] theorem emitRxArm_resets (k : Bit) (s : State) :
    (emitRxArm k s).resets = s.resets := rfl

@[simp] theorem recordFault_params (p : Port) (c : Cause) (s : State) :
    (recordFault p c s).params = s.params := rfl
@[simp] theorem recordFault_mem (p : Port) (c : Cause) (s : State) :
    (recordFault p c s).mem = s.mem := rfl
@[simp] theorem recordFault_actSel (p : Port) (c : Cause) (s : State) :
    (recordFault p c s).actSel = s.actSel := rfl
@[simp] theorem recordFault_procSel (p : Port) (c : Cause) (s : State) :
    (recordFault p c s).procSel = s.procSel := rfl
@[simp] theorem recordFault_length (p : Port) (c : Cause) (s : State) :
    (recordFault p c s).length = s.length := rfl
@[simp] theorem recordFault_ready (p : Port) (c : Cause) (s : State) :
    (recordFault p c s).ready = s.ready := rfl
@[simp] theorem recordFault_capBuf (p : Port) (c : Cause) (s : State) :
    (recordFault p c s).capBuf = s.capBuf := rfl
@[simp] theorem recordFault_capLen (p : Port) (c : Cause) (s : State) :
    (recordFault p c s).capLen = s.capLen := rfl
@[simp] theorem recordFault_crc (p : Port) (c : Cause) (s : State) :
    (recordFault p c s).crc = s.crc := rfl
@[simp] theorem recordFault_crcMode (p : Port) (c : Cause) (s : State) :
    (recordFault p c s).crcMode = s.crcMode := rfl
@[simp] theorem recordFault_pFault (p : Port) (c : Cause) (s : State) :
    (recordFault p c s).pFault = if p = .producer then keepFirst s.pFault c else s.pFault := rfl
@[simp] theorem recordFault_cFault (p : Port) (c : Cause) (s : State) :
    (recordFault p c s).cFault = if p = .consumer then keepFirst s.cFault c else s.cFault := rfl
@[simp] theorem recordFault_capBufWritten (p : Port) (c : Cause) (s : State) :
    (recordFault p c s).capBufWritten = s.capBufWritten := rfl
@[simp] theorem recordFault_capLenWritten (p : Port) (c : Cause) (s : State) :
    (recordFault p c s).capLenWritten = s.capLenWritten := rfl
@[simp] theorem recordFault_crcWritten (p : Port) (c : Cause) (s : State) :
    (recordFault p c s).crcWritten = s.crcWritten := rfl
@[simp] theorem recordFault_readUnwritten (p : Port) (c : Cause) (s : State) :
    (recordFault p c s).readUnwritten = s.readUnwritten := rfl
@[simp] theorem recordFault_inputs (p : Port) (c : Cause) (s : State) :
    (recordFault p c s).inputs = s.inputs := rfl
@[simp] theorem recordFault_responses (p : Port) (c : Cause) (s : State) :
    (recordFault p c s).responses = s.responses := rfl
@[simp] theorem recordFault_rxArms (p : Port) (c : Cause) (s : State) :
    (recordFault p c s).rxArms = s.rxArms := rfl
@[simp] theorem recordFault_resets (p : Port) (c : Cause) (s : State) :
    (recordFault p c s).resets = s.resets := rfl

@[simp] theorem presentNext_params (i : Input) (s : State) :
    (presentNext i s).params = s.params := rfl
@[simp] theorem presentNext_mem (i : Input) (s : State) :
    (presentNext i s).mem = s.mem := rfl
@[simp] theorem presentNext_actSel (i : Input) (s : State) :
    (presentNext i s).actSel = s.actSel := rfl
@[simp] theorem presentNext_procSel (i : Input) (s : State) :
    (presentNext i s).procSel = s.procSel := rfl
@[simp] theorem presentNext_length (i : Input) (s : State) :
    (presentNext i s).length = s.length := rfl
@[simp] theorem presentNext_ready (i : Input) (s : State) :
    (presentNext i s).ready = s.ready := rfl
@[simp] theorem presentNext_capBuf (i : Input) (s : State) :
    (presentNext i s).capBuf = s.capBuf := rfl
@[simp] theorem presentNext_capLen (i : Input) (s : State) :
    (presentNext i s).capLen = s.capLen := rfl
@[simp] theorem presentNext_crc (i : Input) (s : State) :
    (presentNext i s).crc = s.crc := rfl
@[simp] theorem presentNext_crcMode (i : Input) (s : State) :
    (presentNext i s).crcMode = s.crcMode := rfl
@[simp] theorem presentNext_pFault (i : Input) (s : State) :
    (presentNext i s).pFault = s.pFault := rfl
@[simp] theorem presentNext_cFault (i : Input) (s : State) :
    (presentNext i s).cFault = s.cFault := rfl
@[simp] theorem presentNext_capBufWritten (i : Input) (s : State) :
    (presentNext i s).capBufWritten = s.capBufWritten := rfl
@[simp] theorem presentNext_capLenWritten (i : Input) (s : State) :
    (presentNext i s).capLenWritten = s.capLenWritten := rfl
@[simp] theorem presentNext_crcWritten (i : Input) (s : State) :
    (presentNext i s).crcWritten = s.crcWritten := rfl
@[simp] theorem presentNext_readUnwritten (i : Input) (s : State) :
    (presentNext i s).readUnwritten = s.readUnwritten := rfl
@[simp] theorem presentNext_inputs (i : Input) (s : State) :
    (presentNext i s).inputs = i :: s.inputs := rfl
@[simp] theorem presentNext_responses (i : Input) (s : State) :
    (presentNext i s).responses = s.responses := rfl
@[simp] theorem presentNext_rxArms (i : Input) (s : State) :
    (presentNext i s).rxArms = s.rxArms := rfl
@[simp] theorem presentNext_resets (i : Input) (s : State) :
    (presentNext i s).resets = s.resets := rfl
@[simp] theorem setInputs_params (l : List Input) (s : State) :
    (setInputs l s).params = s.params := rfl
@[simp] theorem setInputs_mem (l : List Input) (s : State) :
    (setInputs l s).mem = s.mem := rfl
@[simp] theorem setInputs_actSel (l : List Input) (s : State) :
    (setInputs l s).actSel = s.actSel := rfl
@[simp] theorem setInputs_procSel (l : List Input) (s : State) :
    (setInputs l s).procSel = s.procSel := rfl
@[simp] theorem setInputs_length (l : List Input) (s : State) :
    (setInputs l s).length = s.length := rfl
@[simp] theorem setInputs_ready (l : List Input) (s : State) :
    (setInputs l s).ready = s.ready := rfl
@[simp] theorem setInputs_capBuf (l : List Input) (s : State) :
    (setInputs l s).capBuf = s.capBuf := rfl
@[simp] theorem setInputs_capLen (l : List Input) (s : State) :
    (setInputs l s).capLen = s.capLen := rfl
@[simp] theorem setInputs_crc (l : List Input) (s : State) :
    (setInputs l s).crc = s.crc := rfl
@[simp] theorem setInputs_crcMode (l : List Input) (s : State) :
    (setInputs l s).crcMode = s.crcMode := rfl
@[simp] theorem setInputs_pFault (l : List Input) (s : State) :
    (setInputs l s).pFault = s.pFault := rfl
@[simp] theorem setInputs_cFault (l : List Input) (s : State) :
    (setInputs l s).cFault = s.cFault := rfl
@[simp] theorem setInputs_capBufWritten (l : List Input) (s : State) :
    (setInputs l s).capBufWritten = s.capBufWritten := rfl
@[simp] theorem setInputs_capLenWritten (l : List Input) (s : State) :
    (setInputs l s).capLenWritten = s.capLenWritten := rfl
@[simp] theorem setInputs_crcWritten (l : List Input) (s : State) :
    (setInputs l s).crcWritten = s.crcWritten := rfl
@[simp] theorem setInputs_readUnwritten (l : List Input) (s : State) :
    (setInputs l s).readUnwritten = s.readUnwritten := rfl
@[simp] theorem setInputs_inputs (l : List Input) (s : State) :
    (setInputs l s).inputs = l := rfl
@[simp] theorem setInputs_responses (l : List Input) (s : State) :
    (setInputs l s).responses = s.responses := rfl
@[simp] theorem setInputs_rxArms (l : List Input) (s : State) :
    (setInputs l s).rxArms = s.rxArms := rfl
@[simp] theorem setInputs_resets (l : List Input) (s : State) :
    (setInputs l s).resets = s.resets := rfl

end Sys2Proof.Machine
end

