-- ==== Sys2Proof/Laws/Memory.lean ====
section
/-! SUPPORT. The laws of the receive buffer memory: reading after writing, the canonical form, which addresses are listed. -/

namespace Sys2Proof.Machine

theorem Memory.read_write_same (m : Memory) (x : Nat) (v : Byte) :
    Memory.read (Memory.write m x v) x = some v := by
  induction m with
  | nil => simp [Memory.write, Memory.read]
  | cons c rest ih =>
    obtain ⟨a, b⟩ := c
    simp only [Memory.write]
    split
    · simp [Memory.read]
    · split
      · simp [Memory.read]
      · simp [Memory.read, *]

theorem Memory.read_write_other (m : Memory) {x y : Nat} (v : Byte) (h : y ≠ x) :
    Memory.read (Memory.write m x v) y = Memory.read m y := by
  induction m with
  | nil => simp [Memory.write, Memory.read, h]
  | cons c rest ih =>
    obtain ⟨a, b⟩ := c
    simp only [Memory.write]
    split
    · simp [Memory.read, h]
    · split
      · rename_i heq
        subst heq
        simp [Memory.read, h]
      · simp [Memory.read, ih]

theorem Memory.risingFrom_write (m : Memory) {lo x : Nat} (v : Byte) (hx : lo < x)
    (h : Memory.risingFrom lo m = true) : Memory.risingFrom lo (Memory.write m x v) = true := by
  induction m generalizing lo with
  | nil => simp [Memory.write, Memory.risingFrom, hx]
  | cons c rest ih =>
    obtain ⟨a, b⟩ := c
    simp only [Memory.risingFrom, Bool.and_eq_true, decide_eq_true_eq] at h
    simp only [Memory.write]
    split
    · rename_i hlt
      simp [Memory.risingFrom, hx, hlt, h.2]
    · split
      · rename_i heq
        subst heq
        simp [Memory.risingFrom, hx, h.2]
      · simp [Memory.risingFrom, h.1, ih (by omega) h.2]

/-- A write keeps the canonical form. -/
theorem Memory.wf_write (m : Memory) (x : Nat) (v : Byte) (h : Memory.wf m = true) :
    Memory.wf (Memory.write m x v) = true := by
  cases m with
  | nil => rfl
  | cons c rest =>
    obtain ⟨a, b⟩ := c
    simp only [Memory.wf] at h
    simp only [Memory.write]
    split
    · rename_i hlt
      simp [Memory.wf, Memory.risingFrom, hlt, h]
    · split
      · rename_i heq
        subst heq
        simpa [Memory.wf] using h
      · exact Memory.risingFrom_write rest v (by omega) h

/-- A write lists no address but the one written and those listed before. -/
theorem Memory.all_write (m : Memory) (x : Nat) (v : Byte) (p : Nat → Bool) (hx : p x = true)
    (h : m.all (fun c => p c.1) = true) : (Memory.write m x v).all (fun c => p c.1) = true := by
  induction m with
  | nil => simp [Memory.write, hx]
  | cons c rest ih =>
    obtain ⟨a, b⟩ := c
    simp only [List.all_cons, Bool.and_eq_true] at h
    simp only [Memory.write]
    split
    · simpa [hx] using h
    · split
      · rename_i heq
        subst heq
        simpa [hx] using h.2
      · simp only [List.all_cons, Bool.and_eq_true]
        exact ⟨h.1, ih h.2⟩

theorem reset_mem_wf (p : Params) (n : Nat) : Memory.wf (State.resetWith p n).mem = true := rfl

theorem bufAddr_inj {k l : Bit} {i j : Nat} (hi : i < 256) (hj : j < 256)
    (h : bufAddr k i = bufAddr l j) : k = l ∧ i = j := by
  have hk := k.isLt
  have hl := l.isLt
  simp only [bufAddr] at h
  exact ⟨BitVec.eq_of_toNat_eq (by omega), by omega⟩

@[simp] theorem readBuf_writeBuf_same (k : Bit) (i : Nat) (v : Byte) (s : State) :
    readBuf (writeBuf k i v s) k i = some v := Memory.read_write_same _ _ _

theorem readBuf_writeBuf_other {k l : Bit} {i j : Nat} (v : Byte) (s : State) (hi : i < 256) (hj : j < 256)
    (h : ¬(l = k ∧ j = i)) : readBuf (writeBuf k i v s) l j = readBuf s l j :=
  Memory.read_write_other _ _ fun he => h (bufAddr_inj hj hi he)

/-- Reading depends on the memory alone. -/
theorem readBuf_congr {s t : State} (h : t.mem = s.mem) (k : Bit) (i : Nat) : readBuf t k i = readBuf s k i := by
  simp only [readBuf, h]

end Sys2Proof.Machine
end

