-- ==== Sys2Proof/Laws/Ops.lean ====
section
/-! SUPPORT. What the shared operations can do: raising a fault, resetting, one step, a sequence of commands, and each meaning that has more than one outcome. -/

namespace Sys2Proof.Machine

/-! ## Faults and reset -/

/-- A raised fault touches only the record of its port and, on the C-port, the responses. -/
theorem raiseFault_eq (p : Port) (c : Cause) (s : State) : raiseFault p c s =
    { s with
      pFault := if p = .producer then keepFirst s.pFault c else s.pFault
      cFault := if p = .consumer then keepFirst s.cFault c else s.cFault
      responses := if p = .consumer then s.responses ++ [0] else s.responses } := by
  cases p <;> rfl

theorem keepFirst_of_ne_zero {old : BitVec 2} (h : old ≠ 0) (c : Cause) : keepFirst old c = old :=
  if_neg h

/-! ## The two composed updates, field by field -/

@[simp] theorem accumulate_params (b : Byte) (s : State) :
    (accumulate b s).params = s.params := rfl
@[simp] theorem accumulate_mem (b : Byte) (s : State) :
    (accumulate b s).mem = s.mem := rfl
@[simp] theorem accumulate_actSel (b : Byte) (s : State) :
    (accumulate b s).actSel = s.actSel := rfl
@[simp] theorem accumulate_procSel (b : Byte) (s : State) :
    (accumulate b s).procSel = s.procSel := rfl
@[simp] theorem accumulate_length (b : Byte) (s : State) :
    (accumulate b s).length = s.length := rfl
@[simp] theorem accumulate_ready (b : Byte) (s : State) :
    (accumulate b s).ready = s.ready := rfl
@[simp] theorem accumulate_capBuf (b : Byte) (s : State) :
    (accumulate b s).capBuf = s.capBuf := rfl
@[simp] theorem accumulate_capLen (b : Byte) (s : State) :
    (accumulate b s).capLen = s.capLen := rfl
@[simp] theorem accumulate_crc (b : Byte) (s : State) :
    (accumulate b s).crc = upd s.crcMode s.crc b := rfl
@[simp] theorem accumulate_crcMode (b : Byte) (s : State) :
    (accumulate b s).crcMode = s.crcMode := rfl
@[simp] theorem accumulate_pFault (b : Byte) (s : State) :
    (accumulate b s).pFault = s.pFault := rfl
@[simp] theorem accumulate_cFault (b : Byte) (s : State) :
    (accumulate b s).cFault = s.cFault := rfl
@[simp] theorem accumulate_capBufWritten (b : Byte) (s : State) :
    (accumulate b s).capBufWritten = s.capBufWritten := rfl
@[simp] theorem accumulate_capLenWritten (b : Byte) (s : State) :
    (accumulate b s).capLenWritten = s.capLenWritten := rfl
@[simp] theorem accumulate_crcWritten (b : Byte) (s : State) :
    (accumulate b s).crcWritten = s.crcWritten := rfl
@[simp] theorem accumulate_readUnwritten (b : Byte) (s : State) :
    (accumulate b s).readUnwritten = (s.readUnwritten || !s.crcWritten) := rfl
@[simp] theorem accumulate_inputs (b : Byte) (s : State) :
    (accumulate b s).inputs = s.inputs := rfl
@[simp] theorem accumulate_responses (b : Byte) (s : State) :
    (accumulate b s).responses = s.responses := rfl
@[simp] theorem accumulate_rxArms (b : Byte) (s : State) :
    (accumulate b s).rxArms = s.rxArms := rfl
@[simp] theorem accumulate_resets (b : Byte) (s : State) :
    (accumulate b s).resets = s.resets := rfl

@[simp] theorem completeFrame_params (n : Half) (s : State) :
    (completeFrame n s).params = s.params := rfl
@[simp] theorem completeFrame_mem (n : Half) (s : State) :
    (completeFrame n s).mem = s.mem := rfl
@[simp] theorem completeFrame_actSel (n : Half) (s : State) :
    (completeFrame n s).actSel = ~~~s.actSel := rfl
@[simp] theorem completeFrame_procSel (n : Half) (s : State) :
    (completeFrame n s).procSel = s.actSel := rfl
@[simp] theorem completeFrame_length (n : Half) (s : State) :
    (completeFrame n s).length = n := rfl
@[simp] theorem completeFrame_ready (n : Half) (s : State) :
    (completeFrame n s).ready = 1 := rfl
@[simp] theorem completeFrame_capBuf (n : Half) (s : State) :
    (completeFrame n s).capBuf = s.capBuf := rfl
@[simp] theorem completeFrame_capLen (n : Half) (s : State) :
    (completeFrame n s).capLen = s.capLen := rfl
@[simp] theorem completeFrame_crc (n : Half) (s : State) :
    (completeFrame n s).crc = s.crc := rfl
@[simp] theorem completeFrame_crcMode (n : Half) (s : State) :
    (completeFrame n s).crcMode = s.crcMode := rfl
@[simp] theorem completeFrame_pFault (n : Half) (s : State) :
    (completeFrame n s).pFault = s.pFault := rfl
@[simp] theorem completeFrame_cFault (n : Half) (s : State) :
    (completeFrame n s).cFault = s.cFault := rfl
@[simp] theorem completeFrame_capBufWritten (n : Half) (s : State) :
    (completeFrame n s).capBufWritten = s.capBufWritten := rfl
@[simp] theorem completeFrame_capLenWritten (n : Half) (s : State) :
    (completeFrame n s).capLenWritten = s.capLenWritten := rfl
@[simp] theorem completeFrame_crcWritten (n : Half) (s : State) :
    (completeFrame n s).crcWritten = s.crcWritten := rfl
@[simp] theorem completeFrame_readUnwritten (n : Half) (s : State) :
    (completeFrame n s).readUnwritten = s.readUnwritten := rfl
@[simp] theorem completeFrame_inputs (n : Half) (s : State) :
    (completeFrame n s).inputs = s.inputs := rfl
@[simp] theorem completeFrame_responses (n : Half) (s : State) :
    (completeFrame n s).responses = s.responses := rfl
@[simp] theorem completeFrame_rxArms (n : Half) (s : State) :
    (completeFrame n s).rxArms = s.rxArms ++ [~~~s.actSel] := rfl
@[simp] theorem completeFrame_resets (n : Half) (s : State) :
    (completeFrame n s).resets = s.resets := rfl

/-! ## One step -/

theorem step_command {s : State} {p : Port} {w : CommandWord} {rest : List Input}
    (h : s.inputs = .command p w :: rest) : step s = performWord p w (setInputs rest s) := by
  simp [step, nextInput, h, performInput]

/-- Everything a step that answers a next state can be: a command performed, an illegal word recorded, a reset. -/
theorem step_next_cases {s t : State} (h : step s = .next t) :
    (∃ p w rest i, s.inputs = .command p w :: rest ∧ decode p w = .ok i ∧
      exec i (setInputs rest s) = .next t) ∨
    (∃ p w rest e, s.inputs = .command p w :: rest ∧ decode p w = .error e ∧
      t = raiseFault p .illegal (setInputs rest s)) ∨
    (∃ rest, s.inputs = .reset :: rest ∧ t = applyReset (setInputs rest s)) := by
  cases hin : s.inputs with
  | nil => simp [step, nextInput, hin] at h
  | cons i rest =>
    cases i with
    | reset =>
      refine .inr (.inr ⟨rest, rfl, ?_⟩)
      simpa [step, nextInput, hin, performInput] using h.symm
    | command p w =>
      rw [step_command hin, performWord] at h
      cases hd : decode p w with
      | ok i =>
        rw [hd] at h
        exact .inl ⟨p, w, rest, i, rfl, hd, h⟩
      | error e =>
        rw [hd] at h
        refine .inr (.inl ⟨p, w, rest, e, rfl, hd, ?_⟩)
        simpa using h.symm

/-! ## Meanings with more than one outcome -/

/-- `RDB` answers a byte, stops on a byte without value, or raises `IDX`. -/
theorem execRdb_cases (idx : BitVec 8) (s : State) :
    (idx.toNat < s.params.bufSize ∧ ∃ b, readBuf s s.capBuf idx.toNat = some b ∧
      execRdb idx s = .next (respond (byteResponse b) (noteRead s.capBufWritten s))) ∨
    (idx.toNat < s.params.bufSize ∧ readBuf s s.capBuf idx.toNat = none ∧
      execRdb idx s = .fault (.unwritten s.capBuf idx.toNat)) ∨
    (s.params.bufSize ≤ idx.toNat ∧ execRdb idx s = .next (raiseFault .consumer .idx s)) := by
  by_cases hi : idx.toNat < s.params.bufSize
  · cases hb : readBuf s s.capBuf idx.toNat with
    | some b => exact .inl ⟨hi, b, rfl, by simp [execRdb, indexOk, hi, readTaken, hb]⟩
    | none => exact .inr (.inl ⟨hi, rfl, by simp [execRdb, indexOk, hi, readTaken, hb]⟩)
  · exact .inr (.inr ⟨by omega, by simp [execRdb, indexOk, hi]⟩)

/-- `CRCM` takes a byte into the accumulator, stops on a byte without value, or raises `IDX`. -/
theorem execCrcm_cases (idx : BitVec 8) (s : State) :
    (idx.toNat < s.params.bufSize ∧ ∃ b, readBuf s s.capBuf idx.toNat = some b ∧
      execCrcm idx s = .next (respond 0 (noteRead s.capBufWritten (accumulate b s)))) ∨
    (idx.toNat < s.params.bufSize ∧ readBuf s s.capBuf idx.toNat = none ∧
      execCrcm idx s = .fault (.unwritten s.capBuf idx.toNat)) ∨
    (s.params.bufSize ≤ idx.toNat ∧ execCrcm idx s = .next (raiseFault .consumer .idx s)) := by
  by_cases hi : idx.toNat < s.params.bufSize
  · cases hb : readBuf s s.capBuf idx.toNat with
    | some b => exact .inl ⟨hi, b, rfl, by simp [execCrcm, indexOk, hi, readTaken, hb]⟩
    | none => exact .inr (.inl ⟨hi, rfl, by simp [execCrcm, indexOk, hi, readTaken, hb]⟩)
  · exact .inr (.inr ⟨by omega, by simp [execCrcm, indexOk, hi]⟩)

/-- `CRCK` answers the comparison, stops on a byte without value (the lower one first), or raises `IDX`. -/
theorem execCrck_cases (idx : BitVec 8) (s : State) :
    (idx.toNat + 1 < s.params.bufSize ∧ ∃ lo hi, readBuf s s.capBuf idx.toNat = some lo ∧
      readBuf s s.capBuf (idx.toNat + 1) = some hi ∧
      execCrck idx s = .next (respond (testResponse (crcMatches s.crc lo hi))
        (noteRead s.capBufWritten (noteRead s.crcWritten s)))) ∨
    (idx.toNat + 1 < s.params.bufSize ∧ ∃ j, (j = idx.toNat ∨ j = idx.toNat + 1) ∧
      readBuf s s.capBuf j = none ∧ execCrck idx s = .fault (.unwritten s.capBuf j)) ∨
    (s.params.bufSize ≤ idx.toNat + 1 ∧ execCrck idx s = .next (raiseFault .consumer .idx s)) := by
  by_cases hi : idx.toNat + 1 < s.params.bufSize
  · cases hlo : readBuf s s.capBuf idx.toNat with
    | none => exact .inr (.inl ⟨hi, _, .inl rfl, hlo, by simp [execCrck, indexOk, hi, readTaken, hlo]⟩)
    | some lo =>
      cases hhi : readBuf s s.capBuf (idx.toNat + 1) with
      | none => exact .inr (.inl ⟨hi, _, .inr rfl, hhi, by simp [execCrck, indexOk, hi, readTaken, hlo, hhi]⟩)
      | some hb => exact .inl ⟨hi, lo, hb, rfl, rfl, by simp [execCrck, indexOk, hi, readTaken, hlo, hhi]⟩
  · exact .inr (.inr ⟨by omega, by simp [execCrck, indexOk, hi]⟩)

/-- `RXW` stores a byte or raises `IDX`. -/
theorem execRxw_cases (idx data : BitVec 8) (s : State) :
    (idx.toNat < s.params.bufSize ∧ execRxw idx data s = .next (writeBuf s.actSel idx.toNat data s)) ∨
    (s.params.bufSize ≤ idx.toNat ∧ execRxw idx data s = .next (raiseFault .producer .idx s)) := by
  by_cases hi : idx.toNat < s.params.bufSize
  · exact .inl ⟨hi, by simp [execRxw, indexOk, hi, writeActive]⟩
  · exact .inr ⟨by omega, by simp [execRxw, indexOk, hi]⟩

/-- `RXC` completes the frame or raises `SIZE`. -/
theorem execRxc_cases (size : BitVec 16) (s : State) :
    (size.toNat ≤ s.params.bufSize ∧ execRxc size s = .next (completeFrame size s)) ∨
    (s.params.bufSize < size.toNat ∧ execRxc size s = .next (raiseFault .producer .size s)) := by
  by_cases hi : size.toNat ≤ s.params.bufSize
  · exact .inl ⟨hi, by simp [execRxc, sizeOk, hi]⟩
  · exact .inr ⟨by omega, by simp [execRxc, sizeOk, hi]⟩

/-! ## Sequences of commands -/

@[simp] theorem performAll_nil (s : State) : performAll [] s = .next s := rfl

theorem performAll_cons_next {i : Instr} {l : List Instr} {s t : State} (h : exec i s = .next t) :
    performAll (i :: l) s = performAll l t := by
  simp [performAll, h]

theorem performAll_append_next {l m : List Instr} {s t : State} (h : performAll l s = .next t) :
    performAll (l ++ m) s = performAll m t := by
  induction l generalizing s with
  | nil =>
    cases h
    rfl
  | cons i l ih =>
    cases he : exec i s with
    | next u =>
      rw [performAll_cons_next he] at h
      rw [List.cons_append, performAll_cons_next he, ih h]
    | fault f => simp [performAll, he] at h
    | refused r => simp [performAll, he] at h

end Sys2Proof.Machine
end

