-- ==== Sys2Proof/Laws/Exec.lean ====
section
/-! SUPPORT. Everything a command that answers a next state can have done, said once: its own effect, or a fault raised for an operand out of range. -/

namespace Sys2Proof.Machine

/-- The effect of a command whose operand is in range, from one state to the next, by the shared operations. -/
inductive Completes : Instr → State → State → Prop where
  | tst (s : State) : Completes .tst s (respond (bitResponse s.ready) s)
  | capb (s : State) : Completes .capb s (respond 0 (setCapBuf s.procSel s))
  | capl (s : State) : Completes .capl s (respond 0 (setCapLen s.length s))
  | clrr (s : State) : Completes .clrr s (respond 0 (clearReady s))
  | clrl (s : State) : Completes .clrl s (respond 0 (setLength 0 s))
  | rdb (s : State) (idx : BitVec 8) (b : Byte) (hb : readBuf s s.capBuf idx.toNat = some b) :
      Completes (.rdb idx) s (respond (byteResponse b) (noteRead s.capBufWritten s))
  | rdl (s : State) : Completes .rdl s (respond s.capLen (noteRead s.capLenWritten s))
  | crci (s : State) : Completes .crci s (respond 0 (startCrc crcInit s))
  | crcb (s : State) (data : BitVec 8) : Completes (.crcb data) s (respond 0 (accumulate data s))
  | crcm (s : State) (idx : BitVec 8) (b : Byte) (hb : readBuf s s.capBuf idx.toNat = some b) :
      Completes (.crcm idx) s (respond 0 (noteRead s.capBufWritten (accumulate b s)))
  | crcr (s : State) : Completes .crcr s (respond s.crc (noteRead s.crcWritten s))
  | crck (s : State) (idx : BitVec 8) (lo hi : Byte) (hlo : readBuf s s.capBuf idx.toNat = some lo)
      (hhi : readBuf s s.capBuf (idx.toNat + 1) = some hi) :
      Completes (.crck idx) s (respond (testResponse (crcMatches s.crc lo hi))
        (noteRead s.capBufWritten (noteRead s.crcWritten s)))
  | cfgm (s : State) (mode : BitVec 1) : Completes (.cfgm mode) s (respond 0 (setCrcMode mode s))
  | rxw (s : State) (idx data : BitVec 8) (h : idx.toNat < s.params.bufSize) :
      Completes (.rxw idx data) s (writeBuf s.actSel idx.toNat data s)
  | rxc (s : State) (size : BitVec 16) (h : size.toNat ≤ s.params.bufSize) :
      Completes (.rxc size) s (completeFrame size s)

/-- The cause that an operand out of range raises: `SIZE` for `RXC`, `IDX` for the others. -/
def rangeCause : Instr → Cause
  | .rxc _ => .size
  | _ => .idx

theorem rangeCause_ne_illegal (i : Instr) : rangeCause i ≠ .illegal := by
  cases i <;> simp [rangeCause]

theorem rangeCause_consumer {i : Instr} (h : i.port = .consumer) : rangeCause i = .idx := by
  cases i <;> first | rfl | simp at h

/-- The inversion of `exec`: a next state is the command's own effect, or the fault raised for its operand. -/
theorem exec_next_cases {i : Instr} {s t : State} (h : exec i s = .next t) :
    (i.inRange s.params.bufSize = true ∧ Completes i s t) ∨
    (i.inRange s.params.bufSize = false ∧ t = raiseFault i.port (rangeCause i) s) := by
  cases i with
  | rdb idx =>
    rcases execRdb_cases idx s with ⟨hi, b, hb, e⟩ | ⟨_, _, e⟩ | ⟨hi, e⟩ <;>
      rw [show exec (.rdb idx) s = _ from e] at h <;> cases h
    · exact .inl ⟨by simpa [Instr.inRange] using hi, .rdb s idx b hb⟩
    · exact .inr ⟨by simpa [Instr.inRange] using hi, by simp [rangeCause]⟩
  | crcm idx =>
    rcases execCrcm_cases idx s with ⟨hi, b, hb, e⟩ | ⟨_, _, e⟩ | ⟨hi, e⟩ <;>
      rw [show exec (.crcm idx) s = _ from e] at h <;> cases h
    · exact .inl ⟨by simpa [Instr.inRange] using hi, .crcm s idx b hb⟩
    · exact .inr ⟨by simpa [Instr.inRange] using hi, by simp [rangeCause]⟩
  | crck idx =>
    rcases execCrck_cases idx s with ⟨hi, lo, hb, hlo, hhi, e⟩ | ⟨_, _, _, _, e⟩ | ⟨hi, e⟩ <;>
      rw [show exec (.crck idx) s = _ from e] at h <;> cases h
    · exact .inl ⟨by simpa [Instr.inRange] using hi, .crck s idx lo hb hlo hhi⟩
    · exact .inr ⟨by simpa [Instr.inRange] using hi, by simp [rangeCause]⟩
  | rxw idx data =>
    rcases execRxw_cases idx data s with ⟨hi, e⟩ | ⟨hi, e⟩ <;>
      rw [show exec (.rxw idx data) s = _ from e] at h <;> cases h
    · exact .inl ⟨by simpa [Instr.inRange] using hi, .rxw s idx data hi⟩
    · exact .inr ⟨by simpa [Instr.inRange] using hi, by simp [rangeCause]⟩
  | rxc size =>
    rcases execRxc_cases size s with ⟨hi, e⟩ | ⟨hi, e⟩ <;>
      rw [show exec (.rxc size) s = _ from e] at h <;> cases h
    · exact .inl ⟨by simpa [Instr.inRange] using hi, .rxc s size hi⟩
    · exact .inr ⟨by simpa [Instr.inRange] using hi, by simp [rangeCause]⟩
  | tst => cases h; exact .inl ⟨rfl, .tst s⟩
  | capb => cases h; exact .inl ⟨rfl, .capb s⟩
  | capl => cases h; exact .inl ⟨rfl, .capl s⟩
  | clrr => cases h; exact .inl ⟨rfl, .clrr s⟩
  | clrl => cases h; exact .inl ⟨rfl, .clrl s⟩
  | rdl => cases h; exact .inl ⟨rfl, .rdl s⟩
  | crci => cases h; exact .inl ⟨rfl, .crci s⟩
  | crcb data => cases h; exact .inl ⟨rfl, .crcb s data⟩
  | crcr => cases h; exact .inl ⟨rfl, .crcr s⟩
  | cfgm mode => cases h; exact .inl ⟨rfl, .cfgm s mode⟩

end Sys2Proof.Machine
end

