-- ==== Sys2Proof/Tests/Slice0.lean ====
section
/-! SUPPORT. Small tests against the vectors of 95_test_vectors.md and the words of 30_encoding.md, and a witness for every statement with hypotheses. -/

namespace Sys2Proof.Tests

open Sys2Proof Sys2Proof.Machine

/-! ## Well-formedness: what each check refuses -/

/-- 00_scope.md rule R7: BUF_SIZE from 4 to 256. -/
theorem test_wf_params : Params.wf { bufSize := 4 } = true ∧ Params.wf { bufSize := 256 } = true ∧
    Params.wf { bufSize := 3 } = false ∧ Params.wf { bufSize := 257 } = false := by decide

/-- 20_memory.md rule R56, 41_sync_producer.md rule R122, at BUF_SIZE 16. -/
theorem test_wf_operands :
    (Instr.rdb 15).inRange 16 = true ∧ (Instr.rdb 16).inRange 16 = false ∧ (Instr.crcm 16).inRange 16 = false ∧
    (Instr.crck 14).inRange 16 = true ∧ (Instr.crck 15).inRange 16 = false ∧
    (Instr.rxw 16 0).inRange 16 = false ∧ (Instr.rxc 16).inRange 16 = true ∧ (Instr.rxc 17).inRange 16 = false := by decide

/-- The range check of `CRCK` does not wrap: `CRCK 255` is out of range at BUF_SIZE 256. -/
theorem test_wf_crck_does_not_wrap : (Instr.crck 255).inRange 256 = false ∧ (Instr.crck 254).inRange 256 = true := by decide

/-- 30_encoding.md rules R85, R86. -/
theorem test_wf_pseudo : (Pseudo.check 1).wf {} = false ∧ (Pseudo.check 2).wf {} = true ∧
    (Pseudo.crc16 257).wf {} = false ∧ (Pseudo.crc16 256).wf {} = true := by decide

/-! ## Decoding: V100 to V114, and illegal words -/

theorem test_decode_sync : decode .consumer 0x01000000 = .ok .tst ∧ decode .consumer 0x02000000 = .ok .capb ∧
    decode .consumer 0x03000000 = .ok .capl ∧ decode .consumer 0x04000000 = .ok .clrr ∧
    decode .consumer 0x05000000 = .ok .clrl ∧ decode .consumer 0x06FF0000 = .ok (.rdb 255) ∧
    decode .consumer 0x07000000 = .ok .rdl := ⟨rfl, rfl, rfl, rfl, rfl, rfl, rfl⟩

theorem test_decode_crc : decode .consumer 0x10000000 = .ok .crci ∧ decode .consumer 0x110000E4 = .ok (.crcb 0xE4) ∧
    decode .consumer 0x12050000 = .ok (.crcm 5) ∧ decode .consumer 0x13000000 = .ok .crcr ∧
    decode .consumer 0x14FE0000 = .ok (.crck 254) ∧ decode .consumer 0x15000001 = .ok (.cfgm 1) :=
  ⟨rfl, rfl, rfl, rfl, rfl, rfl⟩

theorem test_decode_producer : decode .producer 0x80030011 = .ok (.rxw 3 0x11) ∧
    decode .producer 0x81000100 = .ok (.rxc 256) := ⟨rfl, rfl⟩

/-- The words of V100 to V114 written by the encoder. -/
theorem test_encode : encode (.rdb 255) = 0x06FF0000 ∧ encode (.crcb 0xE4) = 0x110000E4 ∧ encode (.crcm 5) = 0x12050000 ∧
    encode (.crck 254) = 0x14FE0000 ∧ encode (.cfgm 1) = 0x15000001 ∧ encode (.rxw 3 0x11) = 0x80030011 ∧
    encode (.rxc 256) = 0x81000100 := by decide

/-- V115 to V121: no such opcode. -/
theorem test_illegal_opcode : decode .consumer 0x00000000 = .error .unknownOp ∧ decode .producer 0xFFFFFFFF = .error .unknownOp ∧
    decode .consumer 0x08000000 = .error .unknownOp ∧ decode .consumer 0x16000000 = .error .unknownOp ∧
    decode .producer 0x82000000 = .error .unknownOp ∧ decode .consumer 0x7F000000 = .error .unknownOp :=
  ⟨rfl, rfl, rfl, rfl, rfl, rfl⟩

/-- V123, V125: the other port's command. -/
theorem test_illegal_port : decode .producer 0x01000000 = .error .wrongPort ∧
    decode .consumer 0x81000008 = .error .wrongPort := ⟨rfl, rfl⟩

/-- V127, V129, V132, V133, V135, V137, V140: a bit that must be 0, in each format. -/
theorem test_illegal_bits : decode .producer 0x8000FF00 = .error .reservedBits ∧ decode .producer 0x81010000 = .error .reservedBits ∧
    decode .consumer 0x15000003 = .error .reservedBits ∧ decode .consumer 0x15010000 = .error .reservedBits ∧
    decode .consumer 0x06050100 = .error .reservedBits ∧ decode .consumer 0x11010000 = .error .reservedBits ∧
    decode .consumer 0x13800000 = .error .reservedBits := ⟨rfl, rfl, rfl, rfl, rfl, rfl, rfl⟩

/-- V126, V128, V138, V143: an operand out of range still decodes. -/
theorem test_decode_ignores_range : decode .producer 0x80FF00FF = .ok (.rxw 255 0xFF) ∧
    decode .producer 0x8100FFFF = .ok (.rxc 65535) ∧ decode .consumer 0x14FF0000 = .ok (.crck 255) ∧
    decode .consumer 0x12000000 = .ok (.crcm 0) := ⟨rfl, rfl, rfl, rfl⟩

/-- The host's numbering of a table row: its 32 bits are the word. -/
theorem test_decode_table_word : decodeTableWord 32 0x80030011 = some (.rxw 3 0x11) ∧
    decodeTableWord 32 0x15000001 = some (.cfgm 1) ∧ decodeTableWord 32 0x00000000 = none := ⟨rfl, rfl, rfl⟩

/-! ## The checksum: V1 to V8, V14, V20 to V36, and the listing of rule R94 -/

/-- V20 to V25. -/
theorem test_step1 : [0x0000, 0x0001, 0x0002, 0x8000, 0xFFFF, 0xA001].map step1 =
    [0x0000, 0xA001, 0x0001, 0x4000, 0xDFFE, 0xF001] := by decide

/-- V26 to V29, V32, V33, the bit-serial update. -/
theorem test_upd_bitwise : updBitwise 0x1234 0xAB = 0x6852 ∧ updBitwise 0x8000 0x00 = 0x0080 ∧
    updBitwise 0x0001 0x00 = 0xC0C1 ∧ updBitwise 0x0100 0x00 = 0x0001 ∧ updBitwise 0xFFFF 0xFF = 0x00FF ∧
    updBitwise 0xFFFF 0x00 = 0x40BF := by decide

/-- The same by the table. -/
theorem test_upd_table : updTable 0x1234 0xAB = 0x6852 ∧ updTable 0x8000 0x00 = 0x0080 ∧
    updTable 0x0001 0x00 = 0xC0C1 ∧ updTable 0x0100 0x00 = 0x0001 ∧ updTable 0xFFFF 0xFF = 0x00FF ∧
    updTable 0xFFFF 0x00 = 0x40BF := by decide

/-- V1, V2, V3, V4, V5, V6. -/
theorem test_crc16 : crc16 [0x31, 0x32, 0x33, 0x34, 0x35, 0x36, 0x37, 0x38, 0x39] = 0x4B37 ∧
    crc16 [0x01, 0x03, 0x00, 0x00, 0x00, 0x0A] = 0xCDC5 ∧ crc16 [] = 0xFFFF ∧ crc16 [0x00] = 0x40BF ∧
    crc16 [0xFF] = 0x00FF ∧ crc16 [0x01] = 0x807E := by decide +kernel

/-- V7, V8, V14; V36 for F1 and the empty body; V38. -/
theorem test_crc16_frames : crc16 [0x11, 0x03, 0x00, 0x00, 0x00, 0x02] = 0x9BC6 ∧
    crc16 [0x11, 0x03, 0x04, 0x00, 0x00, 0x00, 0x00] = 0xF2EB ∧ crc16 [0x11, 0x03] = 0xE14D ∧
    crc16 [0x11, 0x03, 0x00, 0x00, 0x00, 0x02, 0xC6, 0x9B] = 0 ∧ crc16 [0xFF, 0xFF] = 0 ∧
    crc16 [0x11, 0x03, 0x00, 0x00, 0x00, 0x02, 0x9B, 0xC6] = 0x69F9 := by decide +kernel

/-- 20_memory.md rule R52: 0x9BC6 is sent as C6, then 9B. -/
theorem test_crc_byte_order : crcLow 0x9BC6 = 0xC6 ∧ crcHigh 0x9BC6 = 0x9B := by decide

/-- 40_crc.md rule R94: entries 0 to 63 of the listing. -/
theorem test_table_entries_from_0 :
    (List.range 64).map (fun j => tableEntry (BitVec.ofNat 8 (0 + j))) =
    [0x0000, 0xC0C1, 0xC181, 0x0140, 0xC301, 0x03C0, 0x0280, 0xC241] ++
    [0xC601, 0x06C0, 0x0780, 0xC741, 0x0500, 0xC5C1, 0xC481, 0x0440] ++
    [0xCC01, 0x0CC0, 0x0D80, 0xCD41, 0x0F00, 0xCFC1, 0xCE81, 0x0E40] ++
    [0x0A00, 0xCAC1, 0xCB81, 0x0B40, 0xC901, 0x09C0, 0x0880, 0xC841] ++
    [0xD801, 0x18C0, 0x1980, 0xD941, 0x1B00, 0xDBC1, 0xDA81, 0x1A40] ++
    [0x1E00, 0xDEC1, 0xDF81, 0x1F40, 0xDD01, 0x1DC0, 0x1C80, 0xDC41] ++
    [0x1400, 0xD4C1, 0xD581, 0x1540, 0xD701, 0x17C0, 0x1680, 0xD641] ++
    [0xD201, 0x12C0, 0x1380, 0xD341, 0x1100, 0xD1C1, 0xD081, 0x1040] := by decide

/-- 40_crc.md rule R94: entries 64 to 127 of the listing. -/
theorem test_table_entries_from_64 :
    (List.range 64).map (fun j => tableEntry (BitVec.ofNat 8 (64 + j))) =
    [0xF001, 0x30C0, 0x3180, 0xF141, 0x3300, 0xF3C1, 0xF281, 0x3240] ++
    [0x3600, 0xF6C1, 0xF781, 0x3740, 0xF501, 0x35C0, 0x3480, 0xF441] ++
    [0x3C00, 0xFCC1, 0xFD81, 0x3D40, 0xFF01, 0x3FC0, 0x3E80, 0xFE41] ++
    [0xFA01, 0x3AC0, 0x3B80, 0xFB41, 0x3900, 0xF9C1, 0xF881, 0x3840] ++
    [0x2800, 0xE8C1, 0xE981, 0x2940, 0xEB01, 0x2BC0, 0x2A80, 0xEA41] ++
    [0xEE01, 0x2EC0, 0x2F80, 0xEF41, 0x2D00, 0xEDC1, 0xEC81, 0x2C40] ++
    [0xE401, 0x24C0, 0x2580, 0xE541, 0x2700, 0xE7C1, 0xE681, 0x2640] ++
    [0x2200, 0xE2C1, 0xE381, 0x2340, 0xE101, 0x21C0, 0x2080, 0xE041] := by decide

/-- 40_crc.md rule R94: entries 128 to 191 of the listing. -/
theorem test_table_entries_from_128 :
    (List.range 64).map (fun j => tableEntry (BitVec.ofNat 8 (128 + j))) =
    [0xA001, 0x60C0, 0x6180, 0xA141, 0x6300, 0xA3C1, 0xA281, 0x6240] ++
    [0x6600, 0xA6C1, 0xA781, 0x6740, 0xA501, 0x65C0, 0x6480, 0xA441] ++
    [0x6C00, 0xACC1, 0xAD81, 0x6D40, 0xAF01, 0x6FC0, 0x6E80, 0xAE41] ++
    [0xAA01, 0x6AC0, 0x6B80, 0xAB41, 0x6900, 0xA9C1, 0xA881, 0x6840] ++
    [0x7800, 0xB8C1, 0xB981, 0x7940, 0xBB01, 0x7BC0, 0x7A80, 0xBA41] ++
    [0xBE01, 0x7EC0, 0x7F80, 0xBF41, 0x7D00, 0xBDC1, 0xBC81, 0x7C40] ++
    [0xB401, 0x74C0, 0x7580, 0xB541, 0x7700, 0xB7C1, 0xB681, 0x7640] ++
    [0x7200, 0xB2C1, 0xB381, 0x7340, 0xB101, 0x71C0, 0x7080, 0xB041] := by decide

/-- 40_crc.md rule R94: entries 192 to 255 of the listing. -/
theorem test_table_entries_from_192 :
    (List.range 64).map (fun j => tableEntry (BitVec.ofNat 8 (192 + j))) =
    [0x5000, 0x90C1, 0x9181, 0x5140, 0x9301, 0x53C0, 0x5280, 0x9241] ++
    [0x9601, 0x56C0, 0x5780, 0x9741, 0x5500, 0x95C1, 0x9481, 0x5440] ++
    [0x9C01, 0x5CC0, 0x5D80, 0x9D41, 0x5F00, 0x9FC1, 0x9E81, 0x5E40] ++
    [0x5A00, 0x9AC1, 0x9B81, 0x5B40, 0x9901, 0x59C0, 0x5880, 0x9841] ++
    [0x8801, 0x48C0, 0x4980, 0x8941, 0x4B00, 0x8BC1, 0x8A81, 0x4A40] ++
    [0x4E00, 0x8EC1, 0x8F81, 0x4F40, 0x8D01, 0x4DC0, 0x4C80, 0x8C41] ++
    [0x4400, 0x84C1, 0x8581, 0x4540, 0x8701, 0x47C0, 0x4680, 0x8641] ++
    [0x8201, 0x42C0, 0x4380, 0x8341, 0x4100, 0x81C1, 0x8081, 0x4040] := by decide
/-! ## States for the tests -/

/-- BUF_SIZE 16; the minimum frame `11 03 4D E1` (V81) in buffer 0, queued and captured, its body's CRC in `crc`; bytes 14 and 15 of
buffer 0 written, one byte of the active buffer 1 written. -/
def demo : State :=
  { State.resetWith { bufSize := 16 } 0 with
    mem := [(0, 0x11), (1, 0x03), (2, 0x4D), (3, 0xE1), (14, 0x4D), (15, 0xE1), (256, 0x55)]
    actSel := 1
    procSel := 0
    length := 4
    ready := 1
    capBuf := 0
    capLen := 4
    crc := 0xE14D
    capBufWritten := true
    capLenWritten := true
    crcWritten := true
    rxArms := [0, 1] }

/-- `demo` with something presented. -/
def shown (l : List Input) : State := { demo with inputs := l }

/-- The state an outcome gives, if it gives one. -/
def after (r : Result) : Option State :=
  match r with
  | .next s => some s
  | .fault _ => none
  | .refused _ => none

/-! ## The commands, one step each -/

theorem test_tst : (after (exec .tst demo)).map (·.responses) = some [1] := by decide

/-- V60: `TST` does not clear `ready`. -/
theorem test_tst_keeps_ready : (after (exec .tst demo)).map (·.ready) = some 1 := by decide

/-- V49: from reset, buffer 1. -/
theorem test_capb : (after (exec .capb State.reset)).map (fun s => (s.capBuf, s.capBufWritten)) = some (1, true) := by decide

/-- V62. -/
theorem test_capl : (after (exec .capl { demo with length := 8 })).map (fun s => (s.capLen, s.length)) = some (8, 8) := by decide

/-- V63: `length` stays. -/
theorem test_clrr : (after (exec .clrr demo)).map (fun s => (s.ready, s.length)) = some (0, 4) := by decide

/-- V64: `ready` and `cap_len` stay. -/
theorem test_clrl : (after (exec .clrl demo)).map (fun s => (s.length, s.ready, s.capLen)) = some (0, 1, 4) := by decide

/-- V65: the address byte. -/
theorem test_rdb : (after (exec (.rdb 0) demo)).map (·.responses) = some [0x0011] := by decide

/-- V97: a byte never written has no value. -/
theorem test_rdb_unwritten : exec (.rdb 4) demo = .fault (.unwritten 0 4) := rfl

/-- V65: `RDL`, which V66 says does not clear. -/
theorem test_rdl : (after (exec .rdl demo)).map (fun s => (s.responses, s.capLen)) = some ([4], 4) := by decide

theorem test_crci : (after (exec .crci State.reset)).map (fun s => (s.crc, s.crcWritten)) = some (0xFFFF, true) := by decide

/-- V71: the first byte of the exception body. -/
theorem test_crcb : (after (exec (.crcb 0x11) { demo with crc := 0xFFFF })).map (·.crc) = some 0x4C7F := by decide

/-- The same with the table. -/
theorem test_crcb_table : (after (exec (.crcb 0x11) { demo with crc := 0xFFFF, crcMode := 1 })).map (·.crc) = some 0x4C7F := by
  decide

/-- V72: byte 1 of F1 after byte 0. -/
theorem test_crcm : (after (exec (.crcm 1) { demo with crc := 0x4C7F })).map (·.crc) = some 0xE14D := by decide

/-- V98 for `CRCM`: a byte never written. -/
theorem test_crcm_unwritten : exec (.crcm 13) demo = .fault (.unwritten 0 13) := rfl

theorem test_crcr : (after (exec .crcr demo)).map (·.responses) = some [0xE14D] := by decide

/-- V81: `CRCK 2` on `11 03 4D E1`. -/
theorem test_crck : (after (exec (.crck 2) demo)).map (·.responses) = some [1] := by decide

/-- V38: the bytes swapped answer 0. -/
theorem test_crck_swapped : (after (exec (.crck 2) { demo with crc := 0x4DE1 })).map (·.responses) = some [0] := by decide

theorem test_cfgm : (after (exec (.cfgm 1) demo)).map (fun s => (s.crcMode, s.crc)) = some (1, 0xE14D) := by decide

/-- V50: from reset, buffer 0. -/
theorem test_rxw : (after (exec (.rxw 0 0x11) State.reset)).map (·.mem) = some [(0, 0x11)] := by decide

/-- V84: the last index of a 16-byte buffer; the active buffer is 1 here, so the address is 256 + 15. -/
theorem test_rxw_last : (after (exec (.rxw 15 0x01) demo)).map (fun s => Memory.read s.mem 271) = some (some 0x01) := by decide

/-- Rule R122's example. -/
theorem test_rxc : (after (exec (.rxc 8) State.reset)).map (fun s => (s.actSel, s.procSel, s.length, s.ready, s.rxArms)) =
    some (1, 0, 8, 1, [0, 1]) := by decide

/-- V55: the second completion overwrites `proc_sel` and `length`. -/
theorem test_rxc_overrun : (after (exec (.rxc 8) demo)).map (fun s => (s.actSel, s.procSel, s.length, s.ready)) =
    some (0, 1, 8, 1) := by decide

/-! ## Faults -/

/-- V83, V85: code 2 for an index, code 3 for a size; no `rx_arm`. -/
theorem test_producer_faults : (after (exec (.rxw 16 0x01) demo)).map (fun s => (s.pFault, s.mem.length)) = some (2, 7) ∧
    (after (exec (.rxc 17) demo)).map (fun s => (s.pFault, s.rxArms)) = some (3, [0, 1]) := by decide

/-- V86: the first fault stays. -/
theorem test_first_fault_wins : (after (exec (.rxc 17) { demo with pFault := 2 })).map (·.pFault) = some 2 := by decide

/-- V87: `CRCK 15` at BUF_SIZE 16. -/
theorem test_crck_range : (after (exec (.crck 15) demo)).map (fun s => (s.cFault, s.responses, s.crc)) =
    some (2, [0], 0xE14D) := by decide

/-- V88: the range check comes before the read of an unwritten register. -/
theorem test_range_before_unwritten : (after (exec (.rdb 16) (State.resetWith { bufSize := 16 } 0))).map
    (fun s => (s.cFault, s.readUnwritten)) = some (2, false) := by decide

/-- V90, on each port. -/
theorem test_illegal_word : (after (step (shown [.command .consumer 0x00000000]))).map (fun s => (s.cFault, s.pFault, s.responses)) =
    some (1, 0, [0]) ∧ (after (step (shown [.command .producer 0xFFFFFFFF]))).map (fun s => (s.cFault, s.pFault, s.responses)) =
    some (0, 1, []) := by decide

/-- V91: `CLRR` on the P-port leaves `ready` 1. -/
theorem test_wrong_port : (after (step (shown [.command .producer 0x04000000]))).map (fun s => (s.ready, s.pFault)) = some (1, 1) := by
  decide

/-- V93, V94, V95: the commands run, and the run is recorded as gone wrong (log entry 4). -/
theorem test_unwritten_registers : (after (exec .crcr State.reset)).map State.goneWrong = some true ∧
    (after (exec (.crcb 0x11) State.reset)).map State.goneWrong = some true ∧
    (after (exec .rdl State.reset)).map State.goneWrong = some true := by decide

/-! ## Running from reset, and reset in a run -/

/-- A word placed by the host runs as the first command after reset. -/
theorem test_withFetchWord : (after (step (State.reset.withFetchWord 32 0x81000008))).map (fun s => (s.length, s.inputs)) =
    some (8, []) ∧ (after (step (State.reset.withFetchWord 32 0x01000000))).map (·.responses) = some [0] := by decide

/-- 70_reset_and_hazards.md rules R170, R171. -/
theorem test_reset_in_a_run : (after (step (shown [.reset, .command .consumer 0x01000000]))).map
    (fun s => (s.mem, s.actSel, s.procSel, s.ready)) = some ([], 0, 1, 0) ∧
    (after (step (shown [.reset]))).map (fun s => (s.capBufWritten, s.crcWritten, s.rxArms)) =
      some (false, false, [0, 1, 0]) := by decide

/-- 42_sync_consumer.md rule R138: the four orders. -/
theorem test_take_orders : takeTail {} = [.capb, .capl, .clrr, .clrl] ∧ takeTail ⟨true, false⟩ = [.capl, .capb, .clrr, .clrl] ∧
    takeTail ⟨false, true⟩ = [.capb, .capl, .clrl, .clrr] ∧ takeTail ⟨true, true⟩ = [.capl, .capb, .clrl, .clrr] := by decide

/-- 30_encoding.md rules R85 to R87. -/
theorem test_expansions : checkCommands 4 = [.crci, .crcm 0, .crcm 1, .crck 2] ∧ crc16Commands 0 = [.crci] ∧
    appendCommands [0x11] = [.crci, .crcb 0x11, .crcr] := by decide

/-! ## Witnesses: a state and operands that meet all hypotheses of each statement -/

theorem demo_inv : demo.Inv :=
  ⟨by decide, by decide, by decide, by decide, by decide, by decide, by decide⟩

theorem witness_ResetLeavesTheTabledValues : ∃ (p : Params) (n : Nat) (s : State), s = State.resetWith p n ∧ s.crcMode = 1 :=
  ⟨{ crcModeReset := 1 }, 3, _, rfl, rfl⟩

theorem witness_ResetMeetsTheInvariant : Params.wf { bufSize := 4 } = true ∧ Params.wf { bufSize := 256 } = true := by decide

theorem witness_PresentedResetRestoresResetState : (shown [.reset]).inputs = .reset :: [] := rfl

theorem witness_DecodedWordIsTheEncoding : decode .producer 0x81000100 = .ok (.rxc 256) := rfl

theorem witness_NoWordMatchesTwoRows : ∃ (w : CommandWord) (r q : OpcodeRow), r ∈ opcodeRows ∧ q ∈ opcodeRows ∧
    w &&& r.format.mask = r.matchWord ∧ w &&& q.format.mask = q.matchWord :=
  ⟨0x01000000, _, _, .head _, .head _, by decide, by decide⟩

theorem witness_StepRunsTheDecodedCommand : (shown [.command .consumer 0x06FF0000]).inputs = .command .consumer 0x06FF0000 :: [] ∧
    decode .consumer 0x06FF0000 = .ok (.rdb 255) := ⟨rfl, rfl⟩

theorem witness_IllegalWordOnlyRecordsTheFault :
    (shown [.command .consumer 0]).inputs = .command .consumer 0 :: [] ∧ decode .consumer 0 = .error .unknownOp ∧
    (shown [.command .producer 0x01000000]).inputs = .command .producer 0x01000000 :: [] ∧
    decode .producer 0x01000000 = .error .wrongPort := ⟨rfl, rfl, rfl, rfl⟩

theorem witness_WrongPortCommandRaisesIllegal :
    (shown [.command (Instr.port .clrr).other (encode .clrr)]).inputs = .command (Instr.port .clrr).other (encode .clrr) :: [] ∧
    (Instr.port .clrr).other = .producer ∧ (Instr.port (.rxc 8)).other = .consumer := by decide

theorem witness_StepWithNothingPresentedIsRefused : (shown []).inputs = [] := rfl

theorem witness_OneResponsePerConsumerWord : ∃ t u : State,
    step (shown [.command .consumer 0x01000000]) = .next t ∧ step (shown [.command .producer 0x81000010]) = .next u :=
  ⟨_, _, rfl, rfl⟩

theorem witness_TstAnswersReady : ∃ (s t : State), s.ready = 0 ∧ performAll [.tst, .rxc 16] s = .next t ∧ t.ready = 1 :=
  ⟨{ demo with ready := 0 }, _, rfl, rfl, rfl⟩

theorem witness_CrciLoadsTheInitialValue : ∃ t : State, (Instr.crcb 1 ≠ .crci) ∧ exec (.crcb 1) demo = .next t :=
  ⟨_, by decide, rfl⟩

theorem witness_CfgmSetsTheStrategyFlag : (2 : BitVec 16) >>> 1 ≠ 0 ∧ (0x8000 : BitVec 16) >>> 1 ≠ 0 := by decide

/-- The last byte of the captured buffer. -/
theorem witness_RdbAnswersAByteOfTheCapturedBuffer :
    (15 : Byte).toNat < demo.params.bufSize ∧ readBuf demo demo.capBuf (15 : Byte).toNat = some 0xE1 := by decide

theorem witness_CrcmUpdatesByAByteOfTheCapturedBuffer :
    (0 : Byte).toNat < demo.params.bufSize ∧ readBuf demo demo.capBuf (0 : Byte).toNat = some 0x11 := by decide

/-- The last index that `CRCK` accepts. -/
theorem witness_CrckComparesLowByteFirst : (14 : Byte).toNat + 1 < demo.params.bufSize ∧
    readBuf demo demo.capBuf (14 : Byte).toNat = some 0x4D ∧
    readBuf demo demo.capBuf ((14 : Byte).toNat + 1) = some 0xE1 := by decide

/-- Both sides of the bound. -/
theorem witness_RxwStoresIntoTheActiveBuffer :
    (15 : Byte).toNat < demo.params.bufSize ∧ demo.params.bufSize ≤ (16 : Byte).toNat := by decide

theorem witness_RxcSwapsRolesAndQueuesTheFrame :
    (16 : Half).toNat ≤ demo.params.bufSize ∧ demo.params.bufSize < (17 : Half).toNat := by decide

/-- The first index out of range, and `CRCK` one earlier. -/
theorem witness_IndexOutOfRangeAccessesNothing :
    demo.params.bufSize ≤ (16 : Byte).toNat ∧ demo.params.bufSize ≤ (15 : Byte).toNat + 1 := by decide

/-- BUF_SIZE 256, the two last bytes of the captured buffer written. -/
def wide : State := { demo with params := {}, mem := [(254, 0x4D), (255, 0xE1)] }

/-- At a BUF_SIZE of 256, the last index that each of the four commands accepts. -/
theorem witness_IndexOutOfRangeAccessesNothing_full : wide.params.bufSize = 256 ∧
    (∃ t, exec (.rxw 255 1) wide = .next t) ∧ (∃ t, exec (.rdb 255) wide = .next t) ∧
    (∃ t, exec (.crcm 255) wide = .next t) ∧ (254 : Byte) ≠ 255 ∧ (∃ t, exec (.crck 254) wide = .next t) :=
  ⟨rfl, ⟨_, rfl⟩, ⟨_, rfl⟩, ⟨_, rfl⟩, by decide, ⟨_, rfl⟩⟩

/-- A byte without value in range; for `CRCK`, the lower byte without value, then only the higher one. -/
theorem witness_UnwrittenByteStopsTheRun :
    ((13 : Byte).toNat < demo.params.bufSize ∧ readBuf demo demo.capBuf (13 : Byte).toNat = none) ∧
    ((13 : Byte).toNat + 1 < demo.params.bufSize ∧ readBuf demo demo.capBuf (13 : Byte).toNat = none) ∧
    ((3 : Byte).toNat + 1 < demo.params.bufSize ∧ readBuf demo demo.capBuf (3 : Byte).toNat = some 0xE1 ∧
      readBuf demo demo.capBuf ((3 : Byte).toNat + 1) = none) := by decide

/-- Both outcomes of the alternative occur. -/
theorem witness_OnlyAnUnwrittenByteStopsACommand :
    (∃ t, exec .tst demo = .next t) ∧ exec (.rdb 13) demo = .fault (.unwritten demo.capBuf 13) := ⟨⟨_, rfl⟩, rfl⟩

theorem witness_RecordsChangeExactlyOutOfRange : ∃ t u v : State,
    exec (.rdb 15) demo = .next t ∧ (Instr.rdb 15).inRange demo.params.bufSize = true ∧
    exec (.rdb 16) demo = .next u ∧ (Instr.rdb 16).inRange demo.params.bufSize = false ∧ demo.cFault = 0 ∧
    exec (.rxc 17) demo = .next v ∧ (Instr.rxc 17).inRange demo.params.bufSize = false ∧ demo.pFault = 0 :=
  ⟨_, _, _, rfl, rfl, rfl, rfl, rfl, rfl, rfl, rfl⟩

theorem witness_FirstFaultOfAPortIsKept : ∃ s t : State, step s = .next t ∧ s.inputs.head? ≠ some .reset ∧
    s.pFault ≠ 0 ∧ s.cFault ≠ 0 :=
  ⟨{ shown [.command .producer 0x81000011] with pFault := 2, cFault := 1 }, _, rfl, by decide, by decide, by decide⟩

theorem witness_PortsKeepSeparateRecords : ∃ t u : State, step (shown [.command .consumer 0x06100000]) = .next t ∧
    step (shown [.command .producer 0x81000011]) = .next u := ⟨_, _, rfl, rfl⟩

theorem witness_ConsumerCommandsLeaveProducerState : ∃ t : State, Instr.capb.port = .consumer ∧ exec .capb demo = .next t :=
  ⟨_, by decide, rfl⟩

theorem witness_ProducerCommandsLeaveConsumerState : ∃ t : State, (Instr.rxw 15 1).port = .producer ∧
    exec (.rxw 15 1) demo = .next t := ⟨_, by decide, rfl⟩

theorem witness_ItemsChangeOnlyUnderTheirWriters : ∃ t : State, exec .crcr demo = .next t ∧
    (∀ idx data, Instr.crcr ≠ .rxw idx data) ∧ (∀ n, Instr.crcr ≠ .rxc n) ∧ Instr.crcr ≠ .clrl ∧ Instr.crcr ≠ .clrr ∧
    Instr.crcr ≠ .capb ∧ Instr.crcr ≠ .capl ∧ Instr.crcr ≠ .crci ∧ (∀ b, Instr.crcr ≠ .crcb b) ∧
    (∀ idx, Instr.crcr ≠ .crcm idx) ∧ (∀ m, Instr.crcr ≠ .cfgm m) ∧
    Instr.crcr.inRange demo.params.bufSize = true ∧ Instr.crcr.port = .consumer :=
  ⟨_, rfl, by simp, by simp, by simp, by simp, by simp, by simp, by simp, by simp, by simp, by simp, rfl, rfl⟩

/-- A faulting command of each port: the other port's record is the one left alone. -/
theorem witness_ItemsChangeOnlyUnderTheirWriters_records : ∃ t u : State,
    exec (.rxc 17) demo = .next t ∧ (Instr.rxc 17).port = .producer ∧
    exec (.rdb 16) demo = .next u ∧ (Instr.rdb 16).port = .consumer := ⟨_, _, rfl, rfl, rfl, rfl⟩

theorem witness_RxwNeverTouchesTheProcessBuffer : ∃ t : State, demo.procSel = ~~~demo.actSel ∧
    exec (.rxw 0 0x22) demo = .next t := ⟨_, by decide, rfl⟩

theorem witness_StepKeepsTheInvariant : ∃ s t : State, s.Inv ∧ step s = .next t :=
  ⟨shown [.command .producer 0x81000010], _, ⟨by decide, by decide, by decide, by decide, by decide, by decide, by decide⟩, rfl⟩

theorem witness_StepKeepsSelectorsComplementary : ∃ s t : State, s.procSel = ~~~s.actSel ∧ step s = .next t :=
  ⟨shown [.command .producer 0x81000010], _, by decide, rfl⟩

/-- With an `RXW` inside the take. -/
theorem witness_UndisturbedTakeCapturesTheQueuedFrame :
    (∀ i ∈ [Instr.tst, .capb, .rxw 0 0x11, .capl, .clrr, .clrl], i.port = .producer → ∃ idx data, i = .rxw idx data) ∧
    [Instr.tst, .capb, .rxw 0 0x11, .capl, .clrr, .clrl].filter (fun i => i.port = .consumer) = .tst :: takeAfterTest {} 1 ∧
    demo.ready = 1 ∧ demo.procSel = ~~~demo.actSel := by
  refine ⟨?_, by decide, by decide, by decide⟩
  intro i hi hp
  simp only [List.mem_cons, List.not_mem_nil, or_false] at hi
  rcases hi with rfl | rfl | rfl | rfl | rfl | rfl
  · exact absurd hp (by decide)
  · exact absurd hp (by decide)
  · exact ⟨_, _, rfl⟩
  · exact absurd hp (by decide)
  · exact absurd hp (by decide)
  · exact absurd hp (by decide)

theorem witness_DisturbedTakeLosesOrMispairsAFrame :
    demo.ready = 1 ∧ demo.procSel = ~~~demo.actSel ∧ (11 : Half).toNat ≤ demo.params.bufSize := by decide

theorem witness_TakeOfNothingChangesNothing : State.reset.ready = 0 := rfl

/-- With a poll, a read, a faulting `RXC` and a received byte between the completions. -/
theorem witness_OverrunQueuesTheSecondFrame : ∃ u v : State, demo.procSel = ~~~demo.actSel ∧
    (16 : Half).toNat ≤ demo.params.bufSize ∧ (0 : Half).toNat ≤ demo.params.bufSize ∧
    (∀ i ∈ [Instr.tst, .rdb 0, .rxc 17, .rxw 0 0x22], i ≠ .clrr ∧ ∀ n, i = .rxc n → demo.params.bufSize < n.toNat) ∧
    performAll [.rxc 16, .tst, .rdb 0, .rxc 17, .rxw 0 0x22] demo = .next u ∧ exec (.rxc 0) demo = .next v := by
  refine ⟨_, _, by decide, by decide, by decide, ?_, rfl, rfl⟩
  intro i hi
  simp only [List.mem_cons, List.not_mem_nil, or_false] at hi
  rcases hi with rfl | rfl | rfl | rfl
  · simp
  · simp
  · exact ⟨by simp, fun n hn => by cases hn; decide⟩
  · simp

/-- Commands between the completions that never stop. -/
theorem witness_OverrunQueuesTheSecondFrame_completes :
    (∀ i ∈ [Instr.tst, .capb, .rxw 0 0x22], i ≠ .clrr ∧ ∀ n, i = .rxc n → demo.params.bufSize < n.toNat) ∧
    ∀ i ∈ [Instr.tst, .capb, .rxw 0 0x22], ∀ idx, i ≠ .rdb idx ∧ i ≠ .crcm idx ∧ i ≠ .crck idx := by simp

theorem witness_TakenBufferIsStableUntilItIsRefilled : ∃ t : State,
    (∀ i ∈ [Instr.rxw 0 0x22, .rdb 0], ∀ n, i ≠ .rxc n) ∧ (∀ i ∈ [Instr.rxc 1, .rdb 1], ∀ idx data, i ≠ .rxw idx data) ∧
    performAll ([Instr.rxw 0 0x22, .rdb 0] ++ [.rxc 1, .rdb 1]) demo = .next t :=
  ⟨_, by simp, by simp, rfl⟩

theorem witness_Crc16ComputesTheCrcOfTheCapturedBytes : [(0x11 : Byte), 0x03].length ≤ demo.params.bufSize ∧
    demo.params.wf = true ∧ demo.capBufWritten = true ∧
    ∀ j, j < [(0x11 : Byte), 0x03].length → readBuf demo demo.capBuf j = [(0x11 : Byte), 0x03][j]? := by decide

theorem witness_CheckAnswersWhetherTheTrailingBytesAreTheCrc : [(0x11 : Byte), 0x03].length + 2 ≤ demo.params.bufSize ∧
    demo.params.wf = true ∧ demo.capBufWritten = true ∧
    ∀ j, j < [(0x11 : Byte), 0x03].length + 2 → readBuf demo demo.capBuf j = ([(0x11 : Byte), 0x03] ++ [0x4D, 0xE1])[j]? := by decide

end Sys2Proof.Tests
end

section
/-! PROOFS. Family 20_memory.md: an operand out of range does nothing but raise its fault, an operand in range leaves both fault records. -/

namespace Sys2Proof.Machine

/-! ## Operands in range and out of range -/

/-- Out of range, a command is its fault and nothing else; with `exec_next_cases`, the only way a command raises one. -/
theorem exec_of_not_inRange {i : Instr} {s : State} (h : i.inRange s.params.bufSize = false) :
    exec i s = .next (raiseFault i.port (rangeCause i) s) := by
  cases i with
  | rdb idx =>
    have hi : s.params.bufSize ≤ idx.toNat := by simpa [Instr.inRange] using h
    obtain ⟨hlt, _⟩ | ⟨hlt, _⟩ | ⟨_, e⟩ := execRdb_cases idx s
    · omega
    · omega
    · simpa [exec, rangeCause] using e
  | crcm idx =>
    have hi : s.params.bufSize ≤ idx.toNat := by simpa [Instr.inRange] using h
    obtain ⟨hlt, _⟩ | ⟨hlt, _⟩ | ⟨_, e⟩ := execCrcm_cases idx s
    · omega
    · omega
    · simpa [exec, rangeCause] using e
  | crck idx =>
    have hi : s.params.bufSize ≤ idx.toNat + 1 := by simpa [Instr.inRange] using h
    obtain ⟨hlt, _⟩ | ⟨hlt, _⟩ | ⟨_, e⟩ := execCrck_cases idx s
    · omega
    · omega
    · simpa [exec, rangeCause] using e
  | rxw idx data =>
    have hi : s.params.bufSize ≤ idx.toNat := by simpa [Instr.inRange] using h
    obtain ⟨hlt, _⟩ | ⟨_, e⟩ := execRxw_cases idx data s
    · omega
    · simpa [exec, rangeCause] using e
  | rxc size =>
    have hi : s.params.bufSize < size.toNat := by simpa [Instr.inRange] using h
    obtain ⟨hle, _⟩ | ⟨_, e⟩ := execRxc_cases size s
    · omega
    · simpa [exec, rangeCause] using e
  | tst | capb | capl | clrr | clrl | rdl | crci | crcb _ | crcr | cfgm _ => cases h

/-- No command's own effect writes a fault record. -/
theorem Completes.faults_eq {i : Instr} {s t : State} (h : Completes i s t) :
    t.pFault = s.pFault ∧ t.cFault = s.cFault := by
  cases h <;> simp

theorem exec_inRange_faults_eq {i : Instr} {s t : State} (h : exec i s = .next t)
    (hr : i.inRange s.params.bufSize = true) : t.pFault = s.pFault ∧ t.cFault = s.cFault := by
  obtain ⟨_, hc⟩ | ⟨hf, _⟩ := exec_next_cases h
  · exact hc.faults_eq
  · simp [hr] at hf

/-! ## 20_memory.md rule R56 -/

/-- 60_exceptions.md rule R152 on the C-port: the record takes `IDX` if it was 0, and the response is 0x0000. -/
theorem exec_consumer_of_not_inRange {i : Instr} {s : State} (hp : i.port = .consumer)
    (h : i.inRange s.params.bufSize = false) :
    exec i s = .next { s with
      cFault := if s.cFault = 0 then 2 else s.cFault, responses := s.responses ++ [0] } := by
  rw [exec_of_not_inRange h, hp, rangeCause_consumer hp]
  rfl

theorem exec_rxw_of_le {s : State} {idx : Byte} (data : Byte) (h : s.params.bufSize ≤ idx.toNat) :
    exec (.rxw idx data) s = .next { s with pFault := if s.pFault = 0 then 2 else s.pFault } := by
  rw [exec_of_not_inRange (by simpa [Instr.inRange] using h), port_rxw]
  rfl

theorem exec_crck_of_le {s : State} {idx : Byte} (h : s.params.bufSize ≤ idx.toNat + 1) :
    exec (.crck idx) s = .next { s with
      cFault := if s.cFault = 0 then 2 else s.cFault, responses := s.responses ++ [0] } :=
  exec_consumer_of_not_inRange (port_crck idx) (by simpa [Instr.inRange] using h)

/-- Settles O33: out of range the command is its fault; at 256 bytes every index but `CRCK`'s 255 is in range, and a command
in range leaves the records. -/
theorem indexOutOfRangeAccessesNothing : Obligations.IndexOutOfRangeAccessesNothing := by
  unfold Obligations.IndexOutOfRangeAccessesNothing
  refine ⟨fun s idx data h => ⟨?_, ?_, ?_⟩, fun s idx h => exec_crck_of_le h, fun s t h256 => ?_⟩
  · exact exec_rxw_of_le data h
  · exact exec_consumer_of_not_inRange (port_rdb idx) (by simpa [Instr.inRange] using h)
  · exact exec_consumer_of_not_inRange (port_crcm idx) (by simpa [Instr.inRange] using h)
  · have hlt : ∀ idx : Byte, idx.toNat < s.params.bufSize := fun idx => h256 ▸ idx.isLt
    refine ⟨fun idx data hx => ?_, fun idx hx => ?_, fun idx hx => ?_, fun idx hne hx => ?_, ?_⟩
    · exact (exec_inRange_faults_eq hx (by simp [Instr.inRange, hlt])).1
    · exact (exec_inRange_faults_eq hx (by simp [Instr.inRange, hlt])).2
    · exact (exec_inRange_faults_eq hx (by simp [Instr.inRange, hlt])).2
    · have hsucc : idx.toNat + 1 < s.params.bufSize := by bv_omega
      exact (exec_inRange_faults_eq hx (by simp [Instr.inRange, hsucc])).2
    · exact exec_crck_of_le (by simp [h256])

end Sys2Proof.Machine
end

section
/-! PROOFS. Family 30_encoding.md: a word the decoder refuses only raises `ILLEGAL`, and a command on the other port is such a word. -/

namespace Sys2Proof

theorem Port.other_ne (p : Port) : p.other ≠ p := by
  cases p <;> decide

/-- Rule R76: the opcode finds the command's row, and the port is checked before anything else of the word (rule R88). -/
theorem decode_encode_of_ne_port {i : Instr} {p : Port} (h : p ≠ i.port) :
    decode p (encode i) = .error .wrongPort := by
  obtain ⟨r, hfind, hop, _⟩ := row_of_instr i
  have hport : opPort r.op ≠ p := by rw [hop]; exact h.symm
  simp only [decode, wordOp_encode, hfind, if_pos hport]

end Sys2Proof

namespace Sys2Proof.Machine

/-- Rules R75 and R76: whatever makes a word illegal, the step raises `ILLEGAL` on the port it was presented on. -/
theorem step_of_decode_error {s : State} {p : Port} {w : CommandWord} {rest : List Input} {e : Illegal}
    (hin : s.inputs = .command p w :: rest) (hd : decode p w = .error e) :
    step s = .next (raiseFault p .illegal (setInputs rest s)) := by
  rw [step_command hin, performWord, hd]

/-- Settles O11: the decoder refuses the word by its port, and what is left is the fault on that port. -/
theorem wrongPortCommandRaisesIllegal : Obligations.WrongPortCommandRaisesIllegal := by
  unfold Obligations.WrongPortCommandRaisesIllegal
  intro s i rest hin
  rw [step_of_decode_error hin (decode_encode_of_ne_port (Port.other_ne i.port))]
  cases i.port.other with
  | producer => rfl
  | consumer => rfl

end Sys2Proof.Machine
end

section
/-! PROOFS. Family 40_crc.md: the two strategies compute one update, so the strategy flag reaches nothing but itself; only `CRCI` gives `crc` a value. -/

namespace Sys2Proof

/-- Rule R75: an opcode of the map, on its own port, with a bit set that the format says must be 0. -/
theorem decode_reservedBits {i : Instr} {w : CommandWord} (hop : wordOp w = i.op)
    (hbits : w &&& i.format.mask ≠ i.op ++ (0 : BitVec 24)) : decode i.port w = .error .reservedBits := by
  obtain ⟨r, hfind, hrop, hformat, _⟩ := row_of_instr i
  have hport : opPort r.op = i.port := by rw [hrop]; rfl
  have hrow : w &&& r.format.mask ≠ r.matchWord := by rw [OpcodeRow.matchWord, hformat, hrop]; exact hbits
  simp only [decode, hop, hfind, hport, ne_eq, not_true, if_false, if_pos hrow]

/-- A word of format M has nothing above bit 0 of its `imm` field. -/
theorem imm_shiftRight_eq_zero_of_format_M {op idx : BitVec 8} {imm : BitVec 16}
    (h : fieldsWord op idx imm &&& Format.mask .M = op ++ (0 : BitVec 24)) : imm >>> 1 = 0 := by
  have hmask : ∀ j < 15, (Format.mask .M).getLsbD (1 + j) = true := by decide
  refine BitVec.eq_of_getLsbD_eq fun j hj => ?_
  by_cases hlast : j = 15
  · subst hlast
    simp
  · have hbit := congrArg (·.getLsbD (1 + j)) h
    have hzero : (op ++ (0 : BitVec 24)).getLsbD (1 + j) = false := by
      rw [BitVec.getLsbD_append, if_pos (by omega)]; exact BitVec.getLsbD_zero
    rw [hzero, BitVec.getLsbD_and, hmask j (by omega), Bool.and_true, getLsbD_fieldsWord, if_pos (by omega)] at hbit
    simpa using hbit

end Sys2Proof

namespace Sys2Proof.Machine

/-! ## The two strategies are one function (40_crc.md rule R96) -/

/-- Rule R97: two polynomials that are added cancel. -/
theorem step1_xor (c d : Half) : step1 (c ^^^ d) = step1 c ^^^ step1 d := by
  unfold step1
  rw [BitVec.getLsbD_xor, BitVec.ushiftRight_xor_distrib]
  cases c.getLsbD 0 <;> cases d.getLsbD 0
  · rfl
  · exact BitVec.xor_assoc _ _ _
  · change c >>> 1 ^^^ d >>> 1 ^^^ crcPoly = c >>> 1 ^^^ crcPoly ^^^ d >>> 1
    ac_rfl
  · calc c >>> 1 ^^^ d >>> 1 = (c >>> 1 ^^^ d >>> 1) ^^^ (crcPoly ^^^ crcPoly) := by simp
      _ = (c >>> 1 ^^^ crcPoly) ^^^ (d >>> 1 ^^^ crcPoly) := by ac_rfl

theorem stepN_xor (n : Nat) (c d : Half) : stepN n (c ^^^ d) = stepN n c ^^^ stepN n d := by
  induction n generalizing c d with
  | zero => rfl
  | succ n ih => rw [stepN, step1_xor, ih, stepN, stepN]

/-- As long as zeros are shifted out, the polynomial is not added. -/
theorem stepN_eq_shiftRight {n : Nat} {c : Half} (h : ∀ j < n, c.getLsbD j = false) : stepN n c = c >>> n := by
  induction n generalizing c with
  | zero => simp [stepN]
  | succ n ih =>
    have hstep : step1 c = c >>> 1 := by rw [step1, h 0 (by omega)]; rfl
    have hrest : ∀ j < n, (c >>> 1).getLsbD j = false := fun j hj => by
      rw [BitVec.getLsbD_ushiftRight, h (1 + j) (by omega)]
    rw [stepN, hstep, ih hrest, ← BitVec.shiftRight_add, Nat.add_comm]

/-- Rule R94: eight iterations only shift the high byte down; what they do to the low byte is the table's entry. -/
theorem stepN_eight (x : Half) : stepN 8 x = (x >>> 8) ^^^ tableEntry (x.setWidth 8) := by
  have hlow : ∀ j < 8, (x ^^^ (x.setWidth 8).setWidth 16).getLsbD j = false := fun j hj => by
    simp [hj, show j < 16 by omega]
  have hhigh : (x ^^^ (x.setWidth 8).setWidth 16) >>> 8 = x >>> 8 := by
    refine BitVec.eq_of_getLsbD_eq fun j hj => ?_
    simp
  calc stepN 8 x
      = stepN 8 ((x ^^^ (x.setWidth 8).setWidth 16) ^^^ (x.setWidth 8).setWidth 16) := by
        rw [BitVec.xor_assoc, BitVec.xor_self, BitVec.xor_zero]
    _ = (x >>> 8) ^^^ tableEntry (x.setWidth 8) := by
        rw [stepN_xor, stepN_eq_shiftRight hlow, hhigh, tableEntry]

/-- Rule R96: the byte enters below bit 8, so the shifted half does not see it. -/
theorem updTable_eq_updBitwise (c : Half) (b : Byte) : updTable c b = updBitwise c b := by
  have hbyte : (c ^^^ b.setWidth 16) >>> 8 = c >>> 8 := by
    refine BitVec.eq_of_getLsbD_eq fun j hj => ?_
    simp
  rw [updBitwise, stepN_eight, hbyte, updTable]

/-- Rule R100: the flag chooses a strategy, not a result. -/
@[simp] theorem upd_eq_updBitwise (mode : Bit) (c : Half) (b : Byte) : upd mode c b = updBitwise c b := by
  unfold upd
  split
  · rfl
  · exact updTable_eq_updBitwise c b

/-! ## Commands under another strategy flag (40_crc.md rule R100) -/

theorem accumulate_setCrcMode (b : Byte) (m : Bit) (s : State) :
    accumulate b (setCrcMode m s) = setCrcMode m (accumulate b s) := by
  unfold accumulate
  rw [upd_eq_updBitwise, upd_eq_updBitwise]
  rfl

@[simp] theorem indexOk_setCrcMode (m : Bit) (s : State) (n : Nat) : indexOk (setCrcMode m s) n = indexOk s n := rfl
@[simp] theorem sizeOk_setCrcMode (m : Bit) (s : State) (n : Half) : sizeOk (setCrcMode m s) n = sizeOk s n := rfl
@[simp] theorem readTaken_setCrcMode (m : Bit) (s : State) (j : Nat) :
    readTaken (setCrcMode m s) j = readTaken s j := rfl

/-- `CFGM` overwrites whatever the flag was. -/
theorem exec_cfgm_setCrcMode (mode m : Bit) (s : State) :
    exec (.cfgm mode) (setCrcMode m s) = exec (.cfgm mode) s := rfl

/-- Every other command does the same from either flag, and leaves the flag as it found it. -/
theorem exec_setCrcMode {i : Instr} (hi : ∀ mode, i ≠ .cfgm mode) (m : Bit) (s : State) :
    exec i (setCrcMode m s) = mapNext (setCrcMode m) (exec i s) := by
  cases i with
  | cfgm mode => exact absurd rfl (hi mode)
  | crcb data =>
    simp only [exec, execCrcb, accumulate_setCrcMode]
    rfl
  | rdb idx =>
    simp only [exec, execRdb]
    rw [indexOk_setCrcMode, readTaken_setCrcMode]
    split
    · cases readTaken s idx.toNat <;> rfl
    · rfl
  | crcm idx =>
    simp only [exec, execCrcm, accumulate_setCrcMode]
    rw [indexOk_setCrcMode, readTaken_setCrcMode]
    split
    · cases readTaken s idx.toNat <;> rfl
    · rfl
  | crck idx =>
    simp only [exec, execCrck]
    rw [indexOk_setCrcMode, readTaken_setCrcMode, readTaken_setCrcMode]
    split
    · cases readTaken s idx.toNat with
      | none => rfl
      | some lo => cases readTaken s (idx.toNat + 1) <;> rfl
    · rfl
  | rxw idx data =>
    simp only [exec, execRxw]
    rw [indexOk_setCrcMode]
    split <;> rfl
  | rxc size =>
    simp only [exec, execRxc]
    rw [sizeOk_setCrcMode]
    split <;> rfl
  | tst | capb | capl | clrr | clrl | rdl | crci | crcr => rfl

/-- Rule R100 for a sequence of commands: it ends alike from either flag, but for the flag. -/
theorem performAll_setCrcMode (l : List Instr) (m : Bit) (s : State) :
    mapNext forgetMode (performAll l (setCrcMode m s)) = mapNext forgetMode (performAll l s) := by
  induction l generalizing s with
  | nil => rfl
  | cons i l ih =>
    by_cases hi : ∃ mode, i = .cfgm mode
    · obtain ⟨mode, rfl⟩ := hi
      rw [performAll, performAll, exec_cfgm_setCrcMode]
    · have hm := exec_setCrcMode (fun mode h => hi ⟨mode, h⟩) m s
      cases he : exec i s with
      | next t =>
        rw [he] at hm
        rw [performAll_cons_next hm, performAll_cons_next he, ih]
      | fault f => simp [performAll, hm, he, mapNext]
      | refused r => simp [performAll, hm, he, mapNext]

/-- Settles O30: format M allows only bit 0 of `imm`, and no command but `CFGM` does anything else under another flag. -/
theorem cfgmSetsTheStrategyFlag : Obligations.CfgmSetsTheStrategyFlag := by
  unfold Obligations.CfgmSetsTheStrategyFlag
  refine ⟨by decide, fun s mode => rfl, fun imm himm => ?_, fun l s mode => performAll_setCrcMode l mode s⟩
  have hd : decode (Instr.cfgm 0).port (fieldsWord 0x15 0 imm) = .error .reservedBits :=
    decode_reservedBits (wordOp_fieldsWord _ _ _) fun h => himm (imm_shiftRight_eq_zero_of_format_M h)
  rwa [port_cfgm] at hd

/-! ## Which command gives `crc` a value (40_crc.md rule R101) -/

theorem Completes.crcWritten_eq {i : Instr} {s t : State} (h : Completes i s t) (hi : i ≠ .crci) :
    t.crcWritten = s.crcWritten := by
  cases h with
  | crci => exact absurd rfl hi
  | _ => simp

/-- Settles O25: neither another command's own effect nor a fault raised in its place gives `crc` a value. -/
theorem crciLoadsTheInitialValue : Obligations.CrciLoadsTheInitialValue := by
  unfold Obligations.CrciLoadsTheInitialValue
  refine ⟨by decide, fun s => rfl, fun i s t hi h => ?_⟩
  obtain ⟨_, hc⟩ | ⟨_, rfl⟩ := exec_next_cases h
  · exact hc.crcWritten_eq hi
  · rw [raiseFault_eq]

end Sys2Proof.Machine
end

section
/-! PROOFS. Family 41_sync_producer.md: what `RXW` and `RXC` write, what they leave, and the words that encode them. -/

namespace Sys2Proof

/-- Rule R79 as it is written: `w = (op << 24) or (idx << 16) or imm`. -/
theorem fieldsWord_eq_or (op idx : BitVec 8) (imm : BitVec 16) :
    fieldsWord op idx imm = op.setWidth 32 <<< 24 ||| idx.setWidth 32 <<< 16 ||| imm.setWidth 32 := by
  refine BitVec.eq_of_getLsbD_eq fun j hj => ?_
  simp only [getLsbD_fieldsWord, BitVec.getLsbD_or, BitVec.getLsbD_shiftLeft, BitVec.getLsbD_setWidth]
  split
  · simp [*, show j < 24 by omega]
  · have himm : imm.getLsbD j = false := BitVec.getLsbD_of_ge imm j (by omega)
    split
    · simp [*, show j - 16 < 32 by omega]
    · have hidx : idx.getLsbD (j - 16) = false := BitVec.getLsbD_of_ge idx (j - 16) (by omega)
      simp [*, show j - 24 < 32 by omega]

theorem encode_rxw (idx data : Byte) :
    encode (.rxw idx data) = (0x80000000 : CommandWord) ||| (idx.setWidth 32 <<< 16) ||| data.setWidth 32 := by
  have hop : (0x80 : BitVec 8).setWidth 32 <<< 24 = (0x80000000 : CommandWord) := by decide
  have hdata : (data.setWidth 16).setWidth 32 = data.setWidth 32 := BitVec.setWidth_setWidth (by omega)
  rw [encode_eq_fieldsWord, fieldsWord_eq_or, Instr.op, Instr.idxField, Instr.immField, hop, hdata]

theorem encode_rxc (size : Half) : encode (.rxc size) = 0x81000000 ||| size.setWidth 32 := by
  have hop : (0x81 : BitVec 8).setWidth 32 <<< 24 ||| (0 : BitVec 8).setWidth 32 <<< 16 = (0x81000000 : CommandWord) := by
    decide
  rw [encode_eq_fieldsWord, fieldsWord_eq_or, Instr.op, Instr.idxField, Instr.immField, hop]

end Sys2Proof

namespace Sys2Proof.Machine

/-! ## 41_sync_producer.md rules R121 and R122 -/

theorem exec_rxw_of_lt {s : State} {idx : Byte} (data : Byte) (h : idx.toNat < s.params.bufSize) :
    exec (.rxw idx data) s = .next (writeBuf s.actSel idx.toNat data s) := by
  obtain ⟨_, e⟩ | ⟨hle, _⟩ := execRxw_cases idx data s
  · exact e
  · omega

theorem exec_rxc_of_le {s : State} {size : Half} (h : size.toNat ≤ s.params.bufSize) :
    exec (.rxc size) s = .next (completeFrame size s) := by
  obtain ⟨_, e⟩ | ⟨hlt, _⟩ := execRxc_cases size s
  · exact e
  · omega

theorem exec_rxc_of_lt {s : State} {size : Half} (h : s.params.bufSize < size.toNat) :
    exec (.rxc size) s = .next { s with pFault := if s.pFault = 0 then 3 else s.pFault } := by
  rw [exec_of_not_inRange (by simpa [Instr.inRange] using h), port_rxc]
  rfl

/-- Settles O31: the write is seen at its own address alone, and two bytes of the buffers share no address. -/
theorem rxwStoresIntoTheActiveBuffer : Obligations.RxwStoresIntoTheActiveBuffer := by
  unfold Obligations.RxwStoresIntoTheActiveBuffer
  refine ⟨encode_rxw, fun s idx data => ⟨fun h => ?_, exec_rxw_of_le data⟩⟩
  refine ⟨Memory.write s.mem (bufAddr s.actSel idx.toNat) data, exec_rxw_of_lt data h, ?_, ?_, ?_⟩
  · exact readBuf_writeBuf_same s.actSel idx.toNat data s
  · exact fun a ha => Memory.read_write_other s.mem data ha
  · exact fun k j hj hne => readBuf_writeBuf_other data s idx.isLt hj hne

/-- Settles O32: in range `RXC` is `completeFrame`, which does not read `ready`; out of range it is its fault. -/
theorem rxcSwapsRolesAndQueuesTheFrame : Obligations.RxcSwapsRolesAndQueuesTheFrame := by
  unfold Obligations.RxcSwapsRolesAndQueuesTheFrame
  exact ⟨encode_rxc, fun s size => ⟨exec_rxc_of_le, exec_rxc_of_lt⟩⟩

end Sys2Proof.Machine
end

section
/-! PROOFS. Family 42_sync_consumer.md: the five commands of a take, and which commands write the flag `ready`. -/

namespace Sys2Proof.Machine

/-! ## Sequences of commands -/

/-- A sequence that ends in a next state went through one after its first command. -/
theorem performAll_cons_eq_next {i : Instr} {l : List Instr} {s t : State} :
    performAll (i :: l) s = .next t ↔ ∃ u, exec i s = .next u ∧ performAll l u = .next t := by
  cases he : exec i s <;> simp [performAll, he]

/-- What each command of a sequence keeps, the sequence keeps. -/
theorem performAll_keeps {P : State → Prop} {l : List Instr} {s t : State}
    (hstep : ∀ i ∈ l, ∀ u v, P u → exec i u = .next v → P v) (hs : P s) (h : performAll l s = .next t) : P t := by
  induction l generalizing s with
  | nil => cases h; exact hs
  | cons i l ih =>
    obtain ⟨u, hu, hl⟩ := performAll_cons_eq_next.mp h
    have hPu : P u := hstep i List.mem_cons_self s u hs hu
    exact ih (fun j hj => hstep j (List.mem_cons_of_mem i hj)) hPu hl

/-! ## The flag `ready` (10_state.md rule R23) -/

theorem Completes.ready_eq {i : Instr} {s t : State} (h : Completes i s t) (hclrr : i ≠ .clrr)
    (hrxc : ∀ n, i ≠ .rxc n) : t.ready = s.ready := by
  cases h with
  | clrr => exact absurd rfl hclrr
  | rxc => exact absurd rfl (hrxc _)
  | _ => simp

/-- Rule R23: no command but `CLRR` and `RXC` writes the flag, a faulting command among them. -/
theorem exec_ready_eq {i : Instr} {s t : State} (h : exec i s = .next t) (hclrr : i ≠ .clrr)
    (hrxc : ∀ n, i ≠ .rxc n) : t.ready = s.ready := by
  obtain ⟨_, hc⟩ | ⟨_, rfl⟩ := exec_next_cases h
  · exact hc.ready_eq hclrr hrxc
  · rw [raiseFault_eq]

theorem exec_ready_eq_zero {i : Instr} {s t : State} (h : exec i s = .next t) (hrxc : ∀ n, i ≠ .rxc n)
    (hs : s.ready = 0) : t.ready = 0 := by
  by_cases hclrr : i = .clrr
  · subst hclrr
    cases h
    rfl
  · rw [exec_ready_eq h hclrr hrxc, hs]

/-- Without an `RXC` a flag that is 0 stays 0. -/
theorem performAll_ready_eq_zero {l : List Instr} {s t : State} (h : performAll l s = .next t)
    (hrxc : ∀ n, Instr.rxc n ∉ l) (hs : s.ready = 0) : t.ready = 0 :=
  performAll_keeps (P := fun s => s.ready = 0)
    (fun _ hi _ _ hu he => exec_ready_eq_zero he (fun n hn => hrxc n (hn ▸ hi)) hu) hs h

/-! ## 42_sync_consumer.md rules R131 to R135 -/

/-- Settles O18: commands without an `RXC` among them would have left `ready` 0. -/
theorem tstAnswersReady : Obligations.TstAnswersReady := by
  unfold Obligations.TstAnswersReady
  refine ⟨by decide, fun s => rfl, fun l s t hs h ht => ?_⟩
  by_contra hno
  have hzero : t.ready = 0 := performAll_ready_eq_zero h (not_exists.mp hno) hs
  rw [hzero] at ht
  exact absurd ht (by decide)

/-- Settles O19: the meaning of `CAPB` has one outcome, and it reads `proc_sel` whatever `ready` is. -/
theorem capbCapturesTheProcessBuffer : Obligations.CapbCapturesTheProcessBuffer := by
  unfold Obligations.CapbCapturesTheProcessBuffer
  exact ⟨by decide, fun s => rfl⟩

/-- Settles O20: the meaning of `CAPL` has one outcome, and it reads `length` whatever `ready` is. -/
theorem caplCapturesTheLength : Obligations.CaplCapturesTheLength := by
  unfold Obligations.CaplCapturesTheLength
  exact ⟨by decide, fun s => rfl⟩

/-- Settles O21: the meaning of `CLRR` has one outcome and tests nothing. -/
theorem clrrClearsReady : Obligations.ClrrClearsReady := by
  unfold Obligations.ClrrClearsReady
  exact ⟨by decide, fun s => rfl⟩

/-- Settles O22: the meaning of `CLRL` has one outcome and tests nothing. -/
theorem clrlClearsLength : Obligations.ClrlClearsLength := by
  unfold Obligations.ClrlClearsLength
  exact ⟨by decide, fun s => rfl⟩

end Sys2Proof.Machine
end

section
/-! PROOFS. Family other, the decoder: a mask speaks field by field, and decoding and encoding are each other's inverse. -/

namespace Sys2Proof

/-! ## A format's mask, field by field (30_encoding.md rule R72) -/

/-- The bits of `idx` that a format says must be 0. -/
def Format.idxMask : Format → BitVec 8
  | .N | .D | .I | .M => 0xFF
  | .X | .XD => 0

/-- The bits of `imm` that a format says must be 0. -/
def Format.immMask : Format → BitVec 16
  | .N | .X => 0xFFFF
  | .D | .XD => 0xFF00
  | .I => 0
  | .M => 0xFFFE

theorem Format.mask_eq_fieldsWord (f : Format) : f.mask = fieldsWord 0xFF f.idxMask f.immMask := by
  cases f <;> decide

theorem fieldsWord_and (a x a' x' : BitVec 8) (m m' : BitVec 16) :
    fieldsWord a x m &&& fieldsWord a' x' m' = fieldsWord (a &&& a') (x &&& x') (m &&& m') := by
  rw [fieldsWord, fieldsWord, BitVec.and_append, BitVec.and_append]
  rfl

theorem fieldsWord_inj {a x a' x' : BitVec 8} {m m' : BitVec 16} :
    fieldsWord a x m = fieldsWord a' x' m' ↔ a = a' ∧ x = x' ∧ m = m' := by
  refine ⟨fun h => ⟨?_, ?_, ?_⟩, fun ⟨ha, hx, hm⟩ => by rw [ha, hx, hm]⟩
  · simpa only [wordOp_fieldsWord] using congrArg wordOp h
  · simpa only [wordIdx_fieldsWord] using congrArg wordIdx h
  · simpa only [wordImm_fieldsWord] using congrArg wordImm h

theorem append_zero_eq_fieldsWord (op : BitVec 8) : op ++ (0 : BitVec 24) = fieldsWord op 0 0 := by
  refine BitVec.eq_of_getLsbD_eq fun j hj => ?_
  rw [getLsbD_fieldsWord, BitVec.getLsbD_append]
  by_cases hlow : j < 24
  · simp [hlow]
  · simp [hlow, show ¬j < 16 by omega]

/-- Rule R72, field by field: the opcode is the row's, and the bits of `idx` and `imm` that must be 0 are 0. -/
theorem and_mask_eq_iff (w : CommandWord) (f : Format) (op : BitVec 8) :
    w &&& f.mask = op ++ (0 : BitVec 24) ↔
      wordOp w = op ∧ wordIdx w &&& f.idxMask = 0 ∧ wordImm w &&& f.immMask = 0 := by
  have hop : wordOp w &&& 0xFF = wordOp w := BitVec.and_allOnes
  conv_lhs => rw [← fieldsWord_fields w]
  rw [Format.mask_eq_fieldsWord, fieldsWord_and, append_zero_eq_fieldsWord, fieldsWord_inj, hop]

/-! ## The rows of the opcode map (rule R74) -/

theorem opcodeRows_pairwise_op_ne : opcodeRows.Pairwise (fun r q => r.op ≠ q.op) := by decide

/-- The decoder finds each row by its opcode. -/
theorem find?_op_of_mem {r : OpcodeRow} (hr : r ∈ opcodeRows) :
    opcodeRows.find? (fun q => q.op == r.op) = some r := by
  have hsome : (opcodeRows.find? (fun q => q.op == r.op)).isSome :=
    List.find?_isSome.mpr ⟨r, hr, beq_self_eq_true r.op⟩
  obtain ⟨q, hq⟩ := Option.isSome_iff_exists.mp hsome
  have hop : q.op = r.op := by simpa using List.find?_some hq
  have heq : q = r := List.inj_on_of_nodup_map (List.pairwise_map.mpr opcodeRows_pairwise_op_ne)
    (List.mem_of_find?_eq_some hq) hr hop
  rw [hq, heq]

/-- What a row builds from a word is a command of the row. -/
theorem op_build_of_mem : ∀ r ∈ opcodeRows, ∀ w, (r.build w).op = r.op := by
  simp [opcodeRows, Instr.op]

theorem eq_zero_of_and_allOnes {n : Nat} {x : BitVec n} (h : x &&& BitVec.allOnes n = 0) : x = 0 := by
  rwa [BitVec.and_allOnes] at h

/-- A value with no bit set from `k` on survives being cut to its low `k` bits. -/
theorem setWidth_setWidth_of_high_zero {n k : Nat} {x : BitVec n} (h : x &&& (BitVec.allOnes n <<< k) = 0) :
    (x.setWidth k).setWidth n = x := by
  refine BitVec.eq_of_getLsbD_eq fun j hj => ?_
  have hbit := congrArg (·.getLsbD j) h
  by_cases hk : j < k
  · simp [hj, hk]
  · have hx : x.getLsbD j = false := by simpa [hj, hk] using hbit
    simp [hk, hx]

/-- Where the bits that must be 0 are 0, the operands that a row takes are all there is in the two lower fields. -/
theorem fields_build_of_mem {w : CommandWord} : ∀ r ∈ opcodeRows,
    wordIdx w &&& r.format.idxMask = 0 ∧ wordImm w &&& r.format.immMask = 0 →
      (r.build w).idxField = wordIdx w ∧ (r.build w).immField = wordImm w := by
  have hidx : wordIdx w &&& 0xFF = 0 → 0 = wordIdx w := fun h => (eq_zero_of_and_allOnes h).symm
  have himm : wordImm w &&& 0xFFFF = 0 → 0 = wordImm w := fun h => (eq_zero_of_and_allOnes h).symm
  have hdata : wordImm w &&& 0xFF00 = 0 → (wordData w).setWidth 16 = wordImm w := fun h => by
    rw [wordData_eq]; exact setWidth_setWidth_of_high_zero h
  have hmode : wordImm w &&& 0xFFFE = 0 → (wordMode w).setWidth 16 = wordImm w := fun h => by
    rw [wordMode_eq]; exact setWidth_setWidth_of_high_zero h
  have hN := And.imp hidx himm
  have hX := And.imp (fun _ : wordIdx w &&& 0 = 0 => rfl (a := wordIdx w)) himm
  have hD := And.imp hidx hdata
  have hXD := And.imp (fun _ : wordIdx w &&& 0 = 0 => rfl (a := wordIdx w)) hdata
  have hI := And.imp hidx (fun _ : wordImm w &&& 0 = 0 => rfl (a := wordImm w))
  have hM := And.imp hidx hmode
  simp only [opcodeRows, List.forall_mem_cons]
  exact ⟨hN, hN, hN, hN, hN, hX, hN, hN, hD, hX, hN, hX, hM, hXD, hI, by simp⟩

/-! ## What the decoder answers (rules R75, R76, R88) -/

theorem decode_eq_ok_iff {p : Port} {w : CommandWord} {i : Instr} : decode p w = .ok i ↔
    ∃ r ∈ opcodeRows, w &&& r.format.mask = r.matchWord ∧ opPort r.op = p ∧ r.build w = i := by
  refine ⟨fun h => ?_, fun ⟨r, hr, hm, hp, hb⟩ => ?_⟩
  · unfold decode at h
    split at h
    · cases h
    · next r hfind =>
      split_ifs at h with hp hm
      cases h
      exact ⟨r, List.mem_of_find?_eq_some hfind, not_not.mp hm, not_not.mp hp, rfl⟩
  · obtain ⟨hop, _⟩ := (and_mask_eq_iff w r.format r.op).mp hm
    simp [decode, hop, find?_op_of_mem hr, hp, hm, hb]

/-- Rule R72: every command's word matches its row, by the law of each row. -/
theorem encode_and_mask (i : Instr) : encode i &&& i.format.mask = i.op ++ (0 : BitVec 24) := by
  cases i with
  | tst => exact Laws.TableRow.tst
  | capb => exact Laws.TableRow.capb
  | capl => exact Laws.TableRow.capl
  | clrr => exact Laws.TableRow.clrr
  | clrl => exact Laws.TableRow.clrl
  | rdb idx => exact Laws.TableRow.rdb idx
  | rdl => exact Laws.TableRow.rdl
  | crci => exact Laws.TableRow.crci
  | crcb data => exact Laws.TableRow.crcb data
  | crcm idx => exact Laws.TableRow.crcm idx
  | crcr => exact Laws.TableRow.crcr
  | crck idx => exact Laws.TableRow.crck idx
  | cfgm mode => exact Laws.TableRow.cfgm mode
  | rxw idx data => exact Laws.TableRow.rxw idx data
  | rxc size => exact Laws.TableRow.rxc size

/-- Settles O4: the command's own row matches its word and builds the command from it. -/
theorem decodeOfEncodeIsTheCommand : Obligations.DecodeOfEncodeIsTheCommand := by
  unfold Obligations.DecodeOfEncodeIsTheCommand
  intro i
  obtain ⟨r, hfind, hop, hformat, hbuild⟩ := row_of_instr i
  refine decode_eq_ok_iff.mpr ⟨r, List.mem_of_find?_eq_some hfind, ?_, by rw [hop]; rfl, hbuild⟩
  rw [OpcodeRow.matchWord, hformat, hop, encode_and_mask]

/-- Rules R79, R88: the encoder puts back the three fields that the decoder took apart. -/
theorem encode_of_decode {p : Port} {w : CommandWord} {i : Instr} (h : decode p w = .ok i) :
    encode i = w ∧ i.port = p := by
  obtain ⟨r, hr, hm, hp, rfl⟩ := decode_eq_ok_iff.mp h
  obtain ⟨hop, hzero⟩ := (and_mask_eq_iff w r.format r.op).mp hm
  obtain ⟨hidx, himm⟩ := fields_build_of_mem r hr hzero
  refine ⟨?_, by rw [Instr.port, op_build_of_mem r hr, hp]⟩
  rw [encode_eq_fieldsWord, op_build_of_mem r hr, hidx, himm, ← hop, fieldsWord_fields]

/-- Settles O5: the three fields of the word are those of the command its row builds. -/
theorem decodedWordIsTheEncoding : Obligations.DecodedWordIsTheEncoding := by
  unfold Obligations.DecodedWordIsTheEncoding
  exact fun p w i h => encode_of_decode h

/-- Settles O6: the decoder looks only at the row of the word's opcode, and no other row can match. -/
theorem decodedExactlyWhenMaskMatches : Obligations.DecodedExactlyWhenMaskMatches := by
  unfold Obligations.DecodedExactlyWhenMaskMatches
  intro p w
  constructor
  · rintro ⟨i, h⟩
    obtain ⟨r, hr, hm, hp, _⟩ := decode_eq_ok_iff.mp h
    exact ⟨r, hr, hm, hp⟩
  · rintro ⟨r, hr, hm, hp⟩
    exact ⟨r.build w, decode_eq_ok_iff.mpr ⟨r, hr, hm, hp, rfl⟩⟩

theorem wordOp_eq_of_and_mask {w : CommandWord} {r : OpcodeRow} (h : w &&& r.format.mask = r.matchWord) :
    wordOp w = r.op :=
  ((and_mask_eq_iff w r.format r.op).mp h).1

/-- Settles O7: a word that matches a row has the row's opcode, and the opcodes differ. -/
theorem noWordMatchesTwoRows : Obligations.NoWordMatchesTwoRows := by
  unfold Obligations.NoWordMatchesTwoRows
  refine ⟨rfl, opcodeRows_pairwise_op_ne, opcodeRows_pairwise_op_ne.imp fun hne w h => ?_, fun w r q hr hq hmr hmq => ?_⟩
  · exact hne ((wordOp_eq_of_and_mask h.1).symm.trans (wordOp_eq_of_and_mask h.2))
  · have hop : r.op = q.op := (wordOp_eq_of_and_mask hmr).symm.trans (wordOp_eq_of_and_mask hmq)
    have hfind := find?_op_of_mem hr
    rw [hop, find?_op_of_mem hq] at hfind
    exact (Option.some.inj hfind).symm

/-- Settles O8: each of these concrete words is run through the decoder. -/
theorem wordsOfTheTableDecode : Obligations.WordsOfTheTableDecode := by
  unfold Obligations.WordsOfTheTableDecode
  exact ⟨rfl, rfl, rfl, rfl, rfl, rfl, rfl, rfl⟩

end Sys2Proof
end

section
/-! PROOFS. Family other, the checksum: one iteration is linear and loses nothing, so the update is linear and only the right two bytes give 0. -/

namespace Sys2Proof.Machine

/-! ## One iteration (40_crc.md rule R91) -/

theorem getLsbD_step1 (c : Half) (j : Nat) :
    (step1 c).getLsbD j = (c.getLsbD (j + 1) ^^ (c.getLsbD 0 && crcPoly.getLsbD j)) := by
  unfold step1
  cases c.getLsbD 0 with
  | false => simp [Nat.add_comm]
  | true => simp [Nat.add_comm]

/-- Settles O17: the two branches of `step1` differ by the polynomial. -/
theorem oneIterationShiftsRightAndAddsThePolynomial : Obligations.OneIterationShiftsRightAndAddsThePolynomial := by
  unfold Obligations.OneIterationShiftsRightAndAddsThePolynomial
  exact fun c j _ => getLsbD_step1 c j

/-- The polynomial has bit 15 set and a shifted value has not, so bit 15 tells which bit was shifted out. -/
theorem eq_zero_of_step1_eq_zero {c : Half} (h : step1 c = 0) : c = 0 := by
  have hbit : ∀ j, (c.getLsbD (j + 1) ^^ (c.getLsbD 0 && crcPoly.getLsbD j)) = false := fun j => by
    rw [← getLsbD_step1, h]; exact BitVec.getLsbD_zero
  have hlow : c.getLsbD 0 = false := by
    have htop := hbit 15
    rwa [BitVec.getLsbD_of_ge c 16 le_rfl, show crcPoly.getLsbD 15 = true by decide, Bool.and_true,
      Bool.false_xor] at htop
  refine BitVec.eq_of_getLsbD_eq fun j _ => ?_
  cases j with
  | zero => exact hlow
  | succ j =>
    have hj := hbit j
    rw [hlow, Bool.false_and, Bool.xor_false] at hj
    exact hj.trans BitVec.getLsbD_zero.symm

theorem stepN_eq_zero_iff {n : Nat} {c : Half} : stepN n c = 0 ↔ c = 0 := by
  induction n generalizing c with
  | zero => rfl
  | succ n ih =>
    refine ih.trans ⟨eq_zero_of_step1_eq_zero, fun h => ?_⟩
    rw [h]; decide

theorem stepN_add (m n : Nat) (c : Half) : stepN (m + n) c = stepN n (stepN m c) := by
  induction m generalizing c with
  | zero => rw [Nat.zero_add, stepN]
  | succ m ih => rw [Nat.succ_add, stepN, ih, stepN]

/-! ## The update of a byte (rules R96, R97) -/

/-- Settles O14: each strategy is the bit-serial update, so the bytes alone decide the fold. -/
theorem mixedStrategiesAgreeWithBitSerial : Obligations.MixedStrategiesAgreeWithBitSerial := by
  unfold Obligations.MixedStrategiesAgreeWithBitSerial
  intro bytes c
  rw [crcFrom, List.foldl_map]
  simp only [upd_eq_updBitwise]

theorem updBitwise_zero_byte (c : Half) : updBitwise c 0 = stepN 8 c :=
  congrArg (stepN 8) BitVec.xor_zero

theorem updBitwise_xor (c d : Half) (b : Byte) : updBitwise (c ^^^ d) b = updBitwise c b ^^^ updBitwise d 0 := by
  have hxor : c ^^^ d ^^^ b.setWidth 16 = (c ^^^ b.setWidth 16) ^^^ d := by ac_rfl
  rw [updBitwise_zero_byte, updBitwise, updBitwise, hxor, stepN_xor]

/-- Settles O15: the update is eight linear iterations of the register with the byte added. -/
theorem updateIsLinear : Obligations.UpdateIsLinear := by
  unfold Obligations.UpdateIsLinear
  intro m c d b
  simp only [upd_eq_updBitwise]
  refine ⟨updBitwise_xor c d b, ?_, ?_⟩
  · rw [updBitwise_zero_byte]; exact stepN_eq_zero_iff.mpr rfl
  · rw [updBitwise_zero_byte, updBitwise]

/-! ## The whole function (rules R95, R98, R99) -/

theorem crc16_concat (bytes : List Byte) (b : Byte) : crc16 (bytes ++ [b]) = updBitwise (crc16 bytes) b :=
  List.foldl_concat ..

theorem getLsbD_bytes (hi lo : Byte) (j : Nat) :
    (hi ++ lo : Half).getLsbD j = if j < 8 then lo.getLsbD j else hi.getLsbD (j - 8) :=
  BitVec.getLsbD_append

/-- Rule R98: a value is its two bytes, the high one on the left. -/
theorem append_eq_iff {c : Half} {lo hi : Byte} : hi ++ lo = c ↔ lo = crcLow c ∧ hi = crcHigh c := by
  constructor
  · rintro rfl
    refine ⟨BitVec.eq_of_getLsbD_eq fun j hj => ?_, BitVec.eq_of_getLsbD_eq fun j hj => ?_⟩
    · rw [crcLow, BitVec.getLsbD_setWidth, getLsbD_bytes, if_pos hj]
      simp [hj]
    · rw [crcHigh, BitVec.getLsbD_setWidth, BitVec.getLsbD_ushiftRight, getLsbD_bytes, if_neg (by omega)]
      simp [hj]
  · rintro ⟨rfl, rfl⟩
    refine BitVec.eq_of_getLsbD_eq fun j hj => ?_
    rw [getLsbD_bytes]
    split
    · next hlow => simp [crcLow, hlow]
    · next hhigh => simp [crcHigh, show 8 + (j - 8) = j by omega, show j - 8 < 8 by omega]

/-- Two bytes taken one after the other are sixteen iterations of the register with both added, the second above the first:
eight iterations bring a byte from the high half to the low half, where `updBitwise` adds it. -/
theorem updBitwise_updBitwise (c : Half) (lo hi : Byte) :
    updBitwise (updBitwise c lo) hi = stepN 16 (c ^^^ (hi ++ lo)) := by
  have hlow : ∀ j < 8, (hi ++ (0 : Byte) : Half).getLsbD j = false := fun j hj => by
    rw [getLsbD_bytes, if_pos hj]; exact BitVec.getLsbD_zero
  have hshift : stepN 8 (hi ++ (0 : Byte)) = hi.setWidth 16 := by
    rw [stepN_eq_shiftRight hlow]
    refine BitVec.eq_of_getLsbD_eq fun j hj => ?_
    rw [BitVec.getLsbD_ushiftRight, getLsbD_bytes, if_neg (by omega)]
    simp [hj]
  have hsplit : lo.setWidth 16 ^^^ (hi ++ (0 : Byte)) = hi ++ lo := by
    refine BitVec.eq_of_getLsbD_eq fun j hj => ?_
    rw [BitVec.getLsbD_xor, getLsbD_bytes, getLsbD_bytes]
    split
    · simp [hj]
    · simp [BitVec.getLsbD_of_ge lo j (by omega)]
  rw [updBitwise, updBitwise, ← hshift, ← stepN_xor, ← stepN_add, BitVec.xor_assoc, hsplit]

/-- Settles O16: sixteen iterations give 0 from 0 alone, and the sum of a value and two bytes is 0 when they are its bytes. -/
theorem residueIsZeroExactlyForTheCorrectCrc : Obligations.ResidueIsZeroExactlyForTheCorrectCrc := by
  unfold Obligations.ResidueIsZeroExactlyForTheCorrectCrc
  intro body lo hi
  have hframe : crc16 (body ++ [lo, hi]) = updBitwise (updBitwise (crc16 body) lo) hi := by
    rw [← crc16_concat, ← crc16_concat, List.append_assoc]; rfl
  rw [hframe, updBitwise_updBitwise, stepN_eq_zero_iff, ← append_eq_iff, eq_comm (a := hi ++ lo)]
  exact BitVec.xor_eq_zero_iff

/-- Rules R52, R105: `CRCK` compares its two bytes with the whole register. -/
theorem crcMatches_eq_decide (c : Half) (lo hi : Byte) : crcMatches c lo hi = decide (hi ++ lo = c) := by
  rw [crcMatches, ← Bool.decide_and, decide_eq_decide.mpr append_eq_iff]

end Sys2Proof.Machine
end

section
/-! PROOFS. Family other, one command: what the reading commands answer, which outcome each command can have, and what a raised fault leaves. -/

namespace Sys2Proof.Machine

/-! ## What a raised fault leaves and records (60_exceptions.md rules R151, R152) -/

section
variable (p : Port) (c : Cause) (s : State)

@[simp] theorem raiseFault_params : (raiseFault p c s).params = s.params := by cases p <;> rfl
@[simp] theorem raiseFault_mem : (raiseFault p c s).mem = s.mem := by cases p <;> rfl
@[simp] theorem raiseFault_actSel : (raiseFault p c s).actSel = s.actSel := by cases p <;> rfl
@[simp] theorem raiseFault_procSel : (raiseFault p c s).procSel = s.procSel := by cases p <;> rfl
@[simp] theorem raiseFault_length : (raiseFault p c s).length = s.length := by cases p <;> rfl
@[simp] theorem raiseFault_ready : (raiseFault p c s).ready = s.ready := by cases p <;> rfl
@[simp] theorem raiseFault_capBuf : (raiseFault p c s).capBuf = s.capBuf := by cases p <;> rfl
@[simp] theorem raiseFault_capLen : (raiseFault p c s).capLen = s.capLen := by cases p <;> rfl
@[simp] theorem raiseFault_crc : (raiseFault p c s).crc = s.crc := by cases p <;> rfl
@[simp] theorem raiseFault_crcMode : (raiseFault p c s).crcMode = s.crcMode := by cases p <;> rfl
@[simp] theorem raiseFault_capBufWritten : (raiseFault p c s).capBufWritten = s.capBufWritten := by cases p <;> rfl
@[simp] theorem raiseFault_capLenWritten : (raiseFault p c s).capLenWritten = s.capLenWritten := by cases p <;> rfl
@[simp] theorem raiseFault_crcWritten : (raiseFault p c s).crcWritten = s.crcWritten := by cases p <;> rfl
@[simp] theorem raiseFault_readUnwritten : (raiseFault p c s).readUnwritten = s.readUnwritten := by cases p <;> rfl
@[simp] theorem raiseFault_inputs : (raiseFault p c s).inputs = s.inputs := by cases p <;> rfl
@[simp] theorem raiseFault_rxArms : (raiseFault p c s).rxArms = s.rxArms := by cases p <;> rfl
@[simp] theorem raiseFault_resets : (raiseFault p c s).resets = s.resets := by cases p <;> rfl

@[simp] theorem raiseFault_producer_pFault : (raiseFault .producer c s).pFault = keepFirst s.pFault c := rfl
@[simp] theorem raiseFault_producer_cFault : (raiseFault .producer c s).cFault = s.cFault := rfl
@[simp] theorem raiseFault_producer_responses : (raiseFault .producer c s).responses = s.responses := rfl
@[simp] theorem raiseFault_consumer_pFault : (raiseFault .consumer c s).pFault = s.pFault := rfl
@[simp] theorem raiseFault_consumer_cFault : (raiseFault .consumer c s).cFault = keepFirst s.cFault c := rfl
@[simp] theorem raiseFault_consumer_responses : (raiseFault .consumer c s).responses = s.responses ++ [0] := rfl

end

theorem keepFirst_ne_zero (old : BitVec 2) (c : Cause) : keepFirst old c ≠ 0 := by
  unfold keepFirst
  split
  · cases c <;> decide
  · assumption

/-! ## The commands that read the captured buffer or the registers (42_sync_consumer.md, 40_crc.md section 5) -/

theorem byteResponse_eq_append (b : Byte) : byteResponse b = (0 : BitVec 8) ++ b := by
  refine BitVec.eq_of_getLsbD_eq fun j hj => ?_
  rw [getLsbD_bytes, byteResponse, BitVec.getLsbD_setWidth]
  split
  · simp [hj]
  · simp [BitVec.getLsbD_of_ge b j (by omega)]

theorem testResponse_decide (q : Prop) [Decidable q] : testResponse (decide q) = if q then 1 else 0 := by
  by_cases h : q <;> simp [testResponse, h]

/-- Settles O23: in range and with a value, the read of `execRdb` has one outcome. -/
theorem rdbAnswersAByteOfTheCapturedBuffer : Obligations.RdbAnswersAByteOfTheCapturedBuffer := by
  unfold Obligations.RdbAnswersAByteOfTheCapturedBuffer
  intro s idx b hi hb
  rw [← byteResponse_eq_append]
  simp only [exec, execRdb, indexOk, hi, decide_true, if_true, readTaken, hb]
  rfl

/-- Settles O24: the meaning of `RDL` has one outcome. -/
theorem rdlAnswersTheCapturedLength : Obligations.RdlAnswersTheCapturedLength := by
  unfold Obligations.RdlAnswersTheCapturedLength
  exact fun s => rfl

theorem accumulate_eq (b : Byte) (s : State) : accumulate b s = { s with
    crc := updBitwise s.crc b, readUnwritten := s.readUnwritten || !s.crcWritten } := by
  rw [accumulate, upd_eq_updBitwise]
  rfl

theorem exec_crcb (data : Byte) (s : State) : exec (.crcb data) s = .next { s with
    crc := updBitwise s.crc data
    readUnwritten := s.readUnwritten || !s.crcWritten
    responses := s.responses ++ [0] } := by
  rw [exec, execCrcb, accumulate_eq]
  rfl

/-- Settles O26: both strategies compute the bit-serial update. -/
theorem crcbUpdatesByTheGivenByte : Obligations.CrcbUpdatesByTheGivenByte := by
  unfold Obligations.CrcbUpdatesByTheGivenByte
  exact fun s data => exec_crcb data s

theorem exec_crcm_of_some {s : State} {idx b : Byte} (hi : idx.toNat < s.params.bufSize)
    (hb : readBuf s s.capBuf idx.toNat = some b) : exec (.crcm idx) s = .next { s with
      crc := updBitwise s.crc b
      readUnwritten := s.readUnwritten || !s.crcWritten || !s.capBufWritten
      responses := s.responses ++ [0] } := by
  simp only [exec, execCrcm, indexOk, hi, decide_true, if_true, readTaken, hb, accumulate_eq]
  rfl

/-- Settles O27: in range and with a value, the byte goes into the accumulator as the byte of `CRCB` does. -/
theorem crcmUpdatesByAByteOfTheCapturedBuffer : Obligations.CrcmUpdatesByAByteOfTheCapturedBuffer := by
  unfold Obligations.CrcmUpdatesByAByteOfTheCapturedBuffer
  exact fun s idx b hi hb => exec_crcm_of_some hi hb

/-- Settles O28: the meaning of `CRCR` has one outcome. -/
theorem crcrAnswersTheRunningValue : Obligations.CrcrAnswersTheRunningValue := by
  unfold Obligations.CrcrAnswersTheRunningValue
  exact fun s => rfl

theorem exec_crck_of_some {s : State} {idx lo hi : Byte} (hn : idx.toNat + 1 < s.params.bufSize)
    (hlo : readBuf s s.capBuf idx.toNat = some lo) (hhi : readBuf s s.capBuf (idx.toNat + 1) = some hi) :
    exec (.crck idx) s = .next { s with
      readUnwritten := s.readUnwritten || !s.crcWritten || !s.capBufWritten
      responses := s.responses ++ [if hi ++ lo = s.crc then 1 else 0] } := by
  rw [← testResponse_decide, ← crcMatches_eq_decide]
  simp only [exec, execCrck, indexOk, hn, decide_true, if_true, readTaken, hlo, hhi]
  rfl

/-- Settles O29: comparing byte by byte is comparing the two bytes, the second above the first, with the register. -/
theorem crckComparesLowByteFirst : Obligations.CrckComparesLowByteFirst := by
  unfold Obligations.CrckComparesLowByteFirst
  exact fun s idx lo hi hn hlo hhi => exec_crck_of_some hn hlo hhi

/-- Settles O34: in range, the meanings of the three commands stop at the first read that gives no byte. -/
theorem unwrittenByteStopsTheRun : Obligations.UnwrittenByteStopsTheRun := by
  unfold Obligations.UnwrittenByteStopsTheRun
  refine fun s idx => ⟨fun hi hb => ⟨?_, ?_⟩, fun hn hb => ?_, fun lo hn hlo hhi => ?_⟩
  · simp [exec, execRdb, indexOk, hi, readTaken, hb]
  · simp [exec, execCrcm, indexOk, hi, readTaken, hb]
  · simp [exec, execCrck, indexOk, hn, readTaken, hb]
  · simp [exec, execCrck, indexOk, hn, readTaken, hlo, hhi]

/-- Settles O48: at `ready` 0 the response of `TST` is 0, on which `takeAfterTest` continues with nothing. -/
theorem takeOfNothingChangesNothing : Obligations.TakeOfNothingChangesNothing := by
  unfold Obligations.TakeOfNothingChangesNothing
  intro o s hs
  have hrsp : bitResponse s.ready = 0 := by rw [hs]; rfl
  refine ⟨?_, rfl⟩
  rw [exec, execTst, hrsp]
  rfl

/-! ## Which outcome a command can have (60_exceptions.md rules R151, R153) -/

/-- Settles O35: the three commands that read bytes are the only ones with a meaning that can stop. -/
theorem onlyAnUnwrittenByteStopsACommand : Obligations.OnlyAnUnwrittenByteStopsACommand := by
  unfold Obligations.OnlyAnUnwrittenByteStopsACommand
  intro i s
  cases i with
  | rdb idx =>
    obtain ⟨_, b, _, e⟩ | ⟨hi, hb, e⟩ | ⟨_, e⟩ := execRdb_cases idx s
    · exact .inl ⟨_, e⟩
    · exact .inr ⟨idx, idx.toNat, .inl rfl, hi, hb, e⟩
    · exact .inl ⟨_, e⟩
  | crcm idx =>
    obtain ⟨_, b, _, e⟩ | ⟨hi, hb, e⟩ | ⟨_, e⟩ := execCrcm_cases idx s
    · exact .inl ⟨_, e⟩
    · exact .inr ⟨idx, idx.toNat, .inr (.inl rfl), hi, hb, e⟩
    · exact .inl ⟨_, e⟩
  | crck idx =>
    obtain ⟨_, lo, hi, _, _, e⟩ | ⟨hn, j, hj, hb, e⟩ | ⟨_, e⟩ := execCrck_cases idx s
    · exact .inl ⟨_, e⟩
    · exact .inr ⟨idx, j, .inr (.inr rfl), by omega, hb, e⟩
    · exact .inl ⟨_, e⟩
  | rxw idx data =>
    obtain ⟨_, e⟩ | ⟨_, e⟩ := execRxw_cases idx data s
    · exact .inl ⟨_, e⟩
    · exact .inl ⟨_, e⟩
  | rxc size =>
    obtain ⟨_, e⟩ | ⟨_, e⟩ := execRxc_cases size s
    · exact .inl ⟨_, e⟩
    · exact .inl ⟨_, e⟩
  | tst | capb | capl | clrr | clrl | rdl | crci | crcb _ | crcr | cfgm _ => exact .inl ⟨_, rfl⟩

theorem exec_eq_next_of_no_read {i : Instr} (hi : ∀ idx, i ≠ .rdb idx ∧ i ≠ .crcm idx ∧ i ≠ .crck idx) (s : State) :
    ∃ t, exec i s = .next t := by
  obtain ht | ⟨idx, _, hread, _⟩ := onlyAnUnwrittenByteStopsACommand i s
  · exact ht
  · obtain ⟨hrdb, hcrcm, hcrck⟩ := hi idx
    simp [hrdb, hcrcm, hcrck] at hread

/-- A sequence without a command that reads bytes completes. -/
theorem performAll_eq_next_of_no_read {l : List Instr}
    (hl : ∀ i ∈ l, ∀ idx, i ≠ .rdb idx ∧ i ≠ .crcm idx ∧ i ≠ .crck idx) (s : State) :
    ∃ t, performAll l s = .next t := by
  induction l generalizing s with
  | nil => exact ⟨s, rfl⟩
  | cons i l ih =>
    obtain ⟨u, hu⟩ := exec_eq_next_of_no_read (hl i List.mem_cons_self) s
    rw [performAll_cons_next hu]
    exact ih (fun j hj => hl j (List.mem_cons_of_mem i hj)) u

end Sys2Proof.Machine
end

section
/-! PROOFS. Family other, frames: which items a command writes, which records a word touches, and what a step gives back to its port. -/

namespace Sys2Proof.Machine

/-! ## What a command leaves, item by item (10_state.md rule R20, the column "Written by") -/

/-- Rule R152: a fault raised for the operand writes the records and the responses alone, so an item that neither it nor the
command's own effect writes is as before. -/
theorem exec_keeps {α : Type} {item : State → α} {i : Instr} {s t : State} (h : exec i s = .next t)
    (hfault : ∀ p c, item (raiseFault p c s) = item s) (hown : Completes i s t → item t = item s) :
    item t = item s := by
  obtain ⟨_, hc⟩ | ⟨_, rfl⟩ := exec_next_cases h
  · exact hown hc
  · exact hfault _ _

section
variable {i : Instr} {s t : State} (h : exec i s = .next t)
include h

theorem exec_mem_eq (hi : ∀ idx data, i ≠ .rxw idx data) : t.mem = s.mem :=
  exec_keeps (item := State.mem) h (by simp) fun hc => by
    cases hc with
    | rxw => exact absurd rfl (hi _ _)
    | _ => simp

theorem exec_roles_eq (hi : ∀ n, i ≠ .rxc n) :
    t.actSel = s.actSel ∧ t.procSel = s.procSel ∧ t.rxArms = s.rxArms := by
  have hall := exec_keeps (item := fun u => (u.actSel, u.procSel, u.rxArms)) h (by simp) fun hc => by
    cases hc with
    | rxc => exact absurd rfl (hi _)
    | _ => simp
  simpa using hall

theorem exec_length_eq (hrxc : ∀ n, i ≠ .rxc n) (hclrl : i ≠ .clrl) : t.length = s.length :=
  exec_keeps (item := State.length) h (by simp) fun hc => by
    cases hc with
    | rxc => exact absurd rfl (hrxc _)
    | clrl => exact absurd rfl hclrl
    | _ => simp

theorem exec_capBuf_eq (hi : i ≠ .capb) : t.capBuf = s.capBuf ∧ t.capBufWritten = s.capBufWritten := by
  have hall := exec_keeps (item := fun u => (u.capBuf, u.capBufWritten)) h (by simp) fun hc => by
    cases hc with
    | capb => exact absurd rfl hi
    | _ => simp
  simpa using hall

theorem exec_capLen_eq (hi : i ≠ .capl) : t.capLen = s.capLen ∧ t.capLenWritten = s.capLenWritten := by
  have hall := exec_keeps (item := fun u => (u.capLen, u.capLenWritten)) h (by simp) fun hc => by
    cases hc with
    | capl => exact absurd rfl hi
    | _ => simp
  simpa using hall

theorem exec_crc_eq (hcrci : i ≠ .crci) (hcrcb : ∀ b, i ≠ .crcb b) (hcrcm : ∀ idx, i ≠ .crcm idx) : t.crc = s.crc :=
  exec_keeps (item := State.crc) h (by simp) fun hc => by
    cases hc with
    | crci => exact absurd rfl hcrci
    | crcb => exact absurd rfl (hcrcb _)
    | crcm => exact absurd rfl (hcrcm _)
    | _ => simp

theorem exec_crcWritten_eq (hi : i ≠ .crci) : t.crcWritten = s.crcWritten :=
  exec_keeps (item := State.crcWritten) h (by simp) fun hc => hc.crcWritten_eq hi

theorem exec_crcMode_eq (hi : ∀ m, i ≠ .cfgm m) : t.crcMode = s.crcMode :=
  exec_keeps (item := State.crcMode) h (by simp) fun hc => by
    cases hc with
    | cfgm => exact absurd rfl (hi _)
    | _ => simp

/-- What no command writes. -/
theorem exec_context_eq : t.params = s.params ∧ t.inputs = s.inputs ∧ t.resets = s.resets := by
  have hall := exec_keeps (item := fun u => (u.params, u.inputs, u.resets)) h (by simp) fun hc => by
    cases hc <;> simp
  simpa using hall

theorem exec_readBuf_eq (hi : ∀ idx data, i ≠ .rxw idx data) (k : Bit) (j : Nat) : readBuf t k j = readBuf s k j :=
  readBuf_congr (exec_mem_eq h hi) k j

/-- Rules R51, R121: no command writes a buffer that is not active. -/
theorem exec_readBuf_inactive {k : Bit} (hk : k ≠ s.actSel) {j : Nat} (hj : j < 256) :
    readBuf t k j = readBuf s k j :=
  exec_keeps (item := fun u => readBuf u k j) h (fun p c => readBuf_congr (raiseFault_mem p c s) k j) fun hc => by
    cases hc with
    | rxw _ idx data => exact readBuf_writeBuf_other data s idx.isLt hj fun hsame => hk hsame.1
    | _ => exact readBuf_congr (by simp) k j

/-- 60_exceptions.md rule R158: a fault is recorded on the command's own port. -/
theorem exec_other_record_eq :
    (i.port = .consumer → t.pFault = s.pFault) ∧ (i.port = .producer → t.cFault = s.cFault) := by
  obtain ⟨_, hc⟩ | ⟨_, rfl⟩ := exec_next_cases h
  · exact ⟨fun _ => hc.faults_eq.1, fun _ => hc.faults_eq.2⟩
  · exact ⟨fun hp => by rw [hp]; rfl, fun hp => by rw [hp]; rfl⟩

/-- A P-port command has no response and reads no register. -/
theorem exec_producer_eq (hp : i.port = .producer) :
    t.responses = s.responses ∧ t.readUnwritten = s.readUnwritten := by
  obtain ⟨_, hc⟩ | ⟨_, rfl⟩ := exec_next_cases h
  · cases hc with
    | rxw => exact ⟨rfl, rfl⟩
    | rxc => exact ⟨rfl, rfl⟩
    | _ => simp at hp
  · rw [hp]; exact ⟨rfl, rfl⟩

/-- 30_encoding.md rule R70: a C-port command has one response. -/
theorem exec_consumer_responses (hp : i.port = .consumer) : ∃ r, t.responses = s.responses ++ [r] := by
  obtain ⟨_, hc⟩ | ⟨_, rfl⟩ := exec_next_cases h
  · cases hc with
    | rxw => simp at hp
    | rxc => simp at hp
    | _ => exact ⟨_, rfl⟩
  · rw [hp]; exact ⟨0, rfl⟩

end

/-- Settles O41: item by item. -/
theorem itemsChangeOnlyUnderTheirWriters : Obligations.ItemsChangeOnlyUnderTheirWriters := by
  unfold Obligations.ItemsChangeOnlyUnderTheirWriters
  intro i s t h
  exact ⟨exec_readBuf_eq h, exec_roles_eq h, exec_length_eq h, fun hrxc hclrr => exec_ready_eq h hclrr hrxc,
    exec_capBuf_eq h, exec_capLen_eq h, exec_crc_eq h, exec_crcWritten_eq h, exec_crcMode_eq h,
    exec_inRange_faults_eq h, (exec_other_record_eq h).1, (exec_other_record_eq h).2, exec_context_eq h⟩

theorem ne_of_port_ne {i j : Instr} (h : i.port ≠ j.port) : i ≠ j := fun he => h (congrArg Instr.port he)

/-- Settles O39: the writers of all these items are P-port commands. -/
theorem consumerCommandsLeaveProducerState : Obligations.ConsumerCommandsLeaveProducerState := by
  unfold Obligations.ConsumerCommandsLeaveProducerState
  intro i s t hp h
  obtain ⟨hact, hproc, harms⟩ := exec_roles_eq h fun n => ne_of_port_ne (by simp [hp])
  exact ⟨exec_readBuf_eq h fun idx data => ne_of_port_ne (by simp [hp]), hact, hproc, (exec_other_record_eq h).1 hp,
    harms, exec_context_eq h⟩

/-- Settles O40: the writers of all these items are C-port commands. -/
theorem producerCommandsLeaveConsumerState : Obligations.ProducerCommandsLeaveConsumerState := by
  unfold Obligations.ProducerCommandsLeaveConsumerState
  intro i s t hp h
  obtain ⟨hbuf, hbufW⟩ := exec_capBuf_eq h (ne_of_port_ne (by simp [hp]))
  obtain ⟨hlen, hlenW⟩ := exec_capLen_eq h (ne_of_port_ne (by simp [hp]))
  have hcrc := exec_crc_eq h (ne_of_port_ne (by simp [hp])) (fun b => ne_of_port_ne (by simp [hp]))
    (fun idx => ne_of_port_ne (by simp [hp]))
  have hcrcW := exec_crcWritten_eq h (ne_of_port_ne (by simp [hp]))
  have hmode := exec_crcMode_eq h fun m => ne_of_port_ne (by simp [hp])
  obtain ⟨hrsp, hread⟩ := exec_producer_eq h hp
  exact ⟨hbuf, hlen, hcrc, hmode, (exec_other_record_eq h).2 hp, hbufW, hlenW, hcrcW, hread, hrsp, exec_context_eq h⟩

theorem bit_not_ne (k : Bit) : ~~~k ≠ k := by
  revert k; decide

/-- Settles O42: the process buffer is not the active one. -/
theorem rxwNeverTouchesTheProcessBuffer : Obligations.RxwNeverTouchesTheProcessBuffer := by
  unfold Obligations.RxwNeverTouchesTheProcessBuffer
  intro s t idx data hsel h
  have hk : s.procSel ≠ s.actSel := hsel ▸ bit_not_ne s.actSel
  obtain ⟨hact, hproc, _⟩ := exec_roles_eq h (by simp)
  exact ⟨fun j hj => exec_readBuf_inactive h hk hj, exec_ready_eq h (by simp) (by simp),
    exec_length_eq h (by simp) (by simp), hproc, hact⟩

/-! ## The fault records (60_exceptions.md rules R151, R152, R158) -/

/-- Settles O36: a command in range does its own effect, which writes no record, and one out of range raises its fault. -/
theorem recordsChangeExactlyOutOfRange : Obligations.RecordsChangeExactlyOutOfRange := by
  unfold Obligations.RecordsChangeExactlyOutOfRange
  intro i s t h
  refine ⟨exec_inRange_faults_eq h, fun hr => ?_⟩
  rw [exec_of_not_inRange hr] at h
  cases h
  exact ⟨fun hp _ => by rw [hp]; exact keepFirst_ne_zero _ _, fun hp _ => by rw [hp]; exact keepFirst_ne_zero _ _⟩

theorem raiseFault_keeps_first (p : Port) (c : Cause) (s : State) :
    (s.pFault ≠ 0 → (raiseFault p c s).pFault = s.pFault) ∧ (s.cFault ≠ 0 → (raiseFault p c s).cFault = s.cFault) := by
  cases p with
  | producer => exact ⟨fun hne => keepFirst_of_ne_zero hne c, fun _ => rfl⟩
  | consumer => exact ⟨fun _ => rfl, fun hne => keepFirst_of_ne_zero hne c⟩

/-- Settles O37: the records change only by a raised fault, which keeps a record that is not 0. -/
theorem firstFaultOfAPortIsKept : Obligations.FirstFaultOfAPortIsKept := by
  unfold Obligations.FirstFaultOfAPortIsKept
  intro s t h hno
  obtain ⟨p, w, rest, i, _, _, he⟩ | ⟨p, w, rest, e, _, _, rfl⟩ | ⟨rest, hin, _⟩ := step_next_cases h
  · obtain ⟨_, hc⟩ | ⟨_, rfl⟩ := exec_next_cases he
    · exact ⟨fun _ => hc.faults_eq.1, fun _ => hc.faults_eq.2⟩
    · exact raiseFault_keeps_first _ _ (setInputs rest s)
  · exact raiseFault_keeps_first p .illegal (setInputs rest s)
  · simp [hin] at hno

/-! ## One step (20_memory.md rules R58, R59; 30_encoding.md rules R70, R75) -/

/-- A word performed: a command of the port it was presented on, or the fault `ILLEGAL` on that port. -/
theorem step_word_cases {s t : State} {p : Port} {w : CommandWord} {rest : List Input}
    (hin : s.inputs = .command p w :: rest) (h : step s = .next t) :
    (∃ i, i.port = p ∧ exec i (setInputs rest s) = .next t) ∨ t = raiseFault p .illegal (setInputs rest s) := by
  rw [step_command hin, performWord] at h
  cases hd : decode p w with
  | ok i =>
    rw [hd] at h
    exact .inl ⟨i, (encode_of_decode hd).2, h⟩
  | error e =>
    rw [hd] at h
    cases h
    exact .inr rfl

/-- Settles O9: the step takes the word off the inputs and performs it. -/
theorem stepRunsTheDecodedCommand : Obligations.StepRunsTheDecodedCommand := by
  unfold Obligations.StepRunsTheDecodedCommand
  intro s p w rest i hin hd
  rw [step_command hin, performWord, hd]
  rfl

/-- Settles O10: what is left of the step is the fault on the word's port. -/
theorem illegalWordOnlyRecordsTheFault : Obligations.IllegalWordOnlyRecordsTheFault := by
  unfold Obligations.IllegalWordOnlyRecordsTheFault
  intro s p w rest e hin hd
  rw [step_of_decode_error hin hd]
  cases p with
  | producer => rfl
  | consumer => rfl

/-- Settles O12: there is nothing to take off the inputs. -/
theorem stepWithNothingPresentedIsRefused : Obligations.StepWithNothingPresentedIsRefused := by
  unfold Obligations.StepWithNothingPresentedIsRefused
  intro s hin
  rw [step, nextInput, hin]

/-- Settles O13: a command performed and an illegal word answer alike. -/
theorem oneResponsePerConsumerWord : Obligations.OneResponsePerConsumerWord := by
  unfold Obligations.OneResponsePerConsumerWord
  intro s t p w rest hin h
  obtain ⟨i, rfl, he⟩ | rfl := step_word_cases hin h
  · obtain ⟨_, hinputs, _⟩ := exec_context_eq he
    refine ⟨hinputs, ?_⟩
    cases hp : i.port with
    | producer => exact ⟨[], by simpa using (exec_producer_eq he hp).1, rfl⟩
    | consumer =>
      obtain ⟨r, hr⟩ := exec_consumer_responses he hp
      exact ⟨[r], hr, rfl⟩
  · refine ⟨raiseFault_inputs _ _ _, ?_⟩
    cases p with
    | producer => exact ⟨[], by simp, rfl⟩
    | consumer => exact ⟨[0], rfl, rfl⟩

/-- Settles O38: the word is a command of its port or a fault on it. -/
theorem portsKeepSeparateRecords : Obligations.PortsKeepSeparateRecords := by
  unfold Obligations.PortsKeepSeparateRecords
  intro s t p w rest hin h
  obtain ⟨i, rfl, he⟩ | rfl := step_word_cases hin h
  · obtain ⟨hpFault, hcFault⟩ := exec_other_record_eq he
    exact ⟨hpFault, hcFault⟩
  · exact ⟨fun hp => by rw [hp]; rfl, fun hp => by rw [hp]; rfl⟩

end Sys2Proof.Machine
end

section
/-! PROOFS. Family other, reset and invariants: the state after reset, what every step keeps, and the run under another strategy flag. -/

namespace Sys2Proof.Machine

/-! ## Reset (10_state.md rule R35, 70_reset_and_hazards.md rules R170, R171) -/

/-- Settles O1: item by item, as the reset table has it. -/
theorem resetLeavesTheTabledValues : Obligations.ResetLeavesTheTabledValues := by
  unfold Obligations.ResetLeavesTheTabledValues
  rintro p n s rfl
  exact ⟨rfl, rfl, rfl, rfl, rfl, rfl, rfl, rfl, rfl, rfl, fun _ _ => rfl, rfl, rfl, rfl⟩

theorem resetWith_inv {p : Params} (n : Nat) (hp : p.wf = true) : (State.resetWith p n).Inv where
  params_wf := hp
  mem_wf := rfl
  mem_exists := rfl
  selectors := show (1 : Bit) = ~~~0 by decide
  length_le := Nat.zero_le _
  capLen_le := nofun
  cFault_ne_size := show (0 : BitVec 2) ≠ Cause.code .size by decide

/-- Settles O2: with no byte and no captured length, the invariant is about constants. -/
theorem resetMeetsTheInvariant : Obligations.ResetMeetsTheInvariant := by
  unfold Obligations.ResetMeetsTheInvariant
  exact ⟨fun p n hp => resetWith_inv n hp, resetWith_inv 0 (by decide)⟩

/-- Settles O3: the step takes the reset off the inputs and applies it. -/
theorem presentedResetRestoresResetState : Obligations.PresentedResetRestoresResetState := by
  unfold Obligations.PresentedResetRestoresResetState
  intro s rest hin
  rw [step, nextInput, hin]
  rfl

/-! ## The invariant of the state (10_state.md rules R26, R33; 60_exceptions.md rule R151) -/

theorem addrExists_bufAddr {n i : Nat} (k : Bit) (hi : i < n) (hn : n ≤ 256) : addrExists n (bufAddr k i) = true := by
  have hk := k.isLt
  have hlt : bufAddr k i < 512 := by unfold bufAddr; omega
  have hmod : bufAddr k i % 256 < n := by unfold bufAddr; omega
  exact Bool.and_eq_true_iff.mpr ⟨decide_eq_true hlt, decide_eq_true hmod⟩

theorem bufSize_le_of_wf {p : Params} (h : p.wf = true) : p.bufSize ≤ 256 := by
  simp only [Params.wf, Bool.and_eq_true, decide_eq_true_eq] at h
  exact h.2

/-- The items that the invariant is about. -/
def invItems (s : State) : Params × Memory × Bit × Bit × Half × Half × Bool × BitVec 2 :=
  (s.params, s.mem, s.actSel, s.procSel, s.length, s.capLen, s.capLenWritten, s.cFault)

theorem State.Inv.congr {s t : State} (hs : s.Inv) (h : invItems t = invItems s) : t.Inv := by
  simp only [invItems, Prod.mk.injEq] at h
  obtain ⟨hparams, hmem, hact, hproc, hlength, hcapLen, hwritten, hfault⟩ := h
  constructor <;> simp only [hparams, hmem, hact, hproc, hlength, hcapLen, hwritten, hfault]
  exacts [hs.params_wf, hs.mem_wf, hs.mem_exists, hs.selectors, hs.length_le, hs.capLen_le, hs.cFault_ne_size]

theorem Completes.inv {i : Instr} {s t : State} (hs : s.Inv) (h : Completes i s t) : t.Inv := by
  cases h with
  | capl => exact { hs with capLen_le := fun _ => hs.length_le }
  | clrl => exact { hs with length_le := Nat.zero_le _ }
  | rxw _ idx data hi =>
    have haddr := addrExists_bufAddr s.actSel hi (bufSize_le_of_wf hs.params_wf)
    exact { hs with
      mem_wf := Memory.wf_write s.mem _ data hs.mem_wf
      mem_exists := Memory.all_write s.mem _ data (addrExists s.params.bufSize) haddr hs.mem_exists }
  | rxc _ size hn => exact { hs with selectors := BitVec.not_not.symm, length_le := hn }
  | _ => exact hs.congr (by simp [invItems])

theorem keepFirst_ne_size {old : BitVec 2} {c : Cause} (hc : c ≠ .size) (h : old ≠ Cause.code .size) :
    keepFirst old c ≠ Cause.code .size := by
  unfold keepFirst
  split
  · cases c with
    | size => exact absurd rfl hc
    | illegal => decide
    | idx => decide
  · exact h

/-- Rule R151: `SIZE` is a cause of the P-port alone. -/
theorem raiseFault_inv {p : Port} {c : Cause} {s : State} (hs : s.Inv) (hc : p = .consumer → c ≠ .size) :
    (raiseFault p c s).Inv := by
  cases p with
  | producer => exact { hs with }
  | consumer => exact { hs with cFault_ne_size := keepFirst_ne_size (hc rfl) hs.cFault_ne_size }

theorem exec_inv {i : Instr} {s t : State} (hs : s.Inv) (h : exec i s = .next t) : t.Inv := by
  obtain ⟨_, hc⟩ | ⟨_, rfl⟩ := exec_next_cases h
  · exact hc.inv hs
  · exact raiseFault_inv hs fun hp => by simp [rangeCause_consumer hp]

theorem setInputs_inv {l : List Input} {s : State} (hs : s.Inv) : (setInputs l s).Inv := { hs with }

theorem applyReset_inv {s : State} (hs : s.Inv) : (applyReset s).Inv :=
  { resetWith_inv (s.resets + 1) hs.params_wf with }

/-- Settles O43: a command, a raised fault and a reset each keep the invariant. -/
theorem stepKeepsTheInvariant : Obligations.StepKeepsTheInvariant := by
  unfold Obligations.StepKeepsTheInvariant
  intro s t hs h
  obtain ⟨p, w, rest, i, _, _, he⟩ | ⟨p, w, rest, e, _, _, rfl⟩ | ⟨rest, _, rfl⟩ := step_next_cases h
  · exact exec_inv (setInputs_inv hs) he
  · exact raiseFault_inv (setInputs_inv hs) fun _ => by simp
  · exact applyReset_inv (setInputs_inv hs)

/-- Rule R33 for one command: `RXC` is the only writer of the selectors, and it writes both. -/
theorem exec_selectors {i : Instr} {s t : State} (hs : s.procSel = ~~~s.actSel) (h : exec i s = .next t) :
    t.procSel = ~~~t.actSel := by
  obtain ⟨_, hc⟩ | ⟨_, rfl⟩ := exec_next_cases h
  · cases hc with
    | rxc => exact BitVec.not_not.symm
    | _ => simpa using hs
  · rwa [raiseFault_procSel, raiseFault_actSel]

/-- Settles O44: after a command by `exec_selectors`, after a fault as before, after a reset by the table. -/
theorem stepKeepsSelectorsComplementary : Obligations.StepKeepsSelectorsComplementary := by
  unfold Obligations.StepKeepsSelectorsComplementary
  intro s t hs h
  obtain ⟨p, w, rest, i, _, _, he⟩ | ⟨p, w, rest, e, _, _, rfl⟩ | ⟨rest, _, rfl⟩ := step_next_cases h
  · exact exec_selectors (s := setInputs rest s) hs he
  · rwa [raiseFault_procSel, raiseFault_actSel]
  · exact show (1 : Bit) = ~~~0 by decide

/-! ## A run under another strategy flag (40_crc.md rules R96, R100) -/

/-- A command from another flag does the same but for the flag, which `CFGM` sets and every other command leaves. -/
theorem exec_setCrcMode_outcome (i : Instr) (m : Bit) (s : State) :
    ∃ m', exec i (setCrcMode m s) = mapNext (setCrcMode m') (exec i s) := by
  by_cases hi : ∃ mode, i = .cfgm mode
  · obtain ⟨mode, rfl⟩ := hi
    exact ⟨mode, rfl⟩
  · exact ⟨m, exec_setCrcMode (fun mode h => hi ⟨mode, h⟩) m s⟩

theorem performWord_setCrcMode (p : Port) (w : CommandWord) (m : Bit) (s : State) :
    ∃ m', performWord p w (setCrcMode m s) = mapNext (setCrcMode m') (performWord p w s) := by
  unfold performWord
  cases decode p w with
  | ok i => exact exec_setCrcMode_outcome i m s
  | error e => cases p <;> exact ⟨m, rfl⟩

/-- The same for a step: after a reset the flag is the parameter's value from either flag. -/
theorem step_setCrcMode (m : Bit) (s : State) :
    ∃ m', step (setCrcMode m s) = mapNext (setCrcMode m') (step s) := by
  unfold step nextInput
  rw [setCrcMode_inputs]
  cases s.inputs with
  | nil => exact ⟨m, rfl⟩
  | cons i rest =>
    cases i with
    | command p w => exact performWord_setCrcMode p w m (setInputs rest s)
    | reset => exact ⟨s.params.crcModeReset, rfl⟩

theorem run_succ_of_next {k : Nat} {s t : State} (h : step s = .next t) : core.run (k + 1) s = core.run k t := by
  simp only [Host.Core.run]
  rw [Host.Check.core_step, h]

theorem run_succ_of_fault {k : Nat} {s : State} {r : Fault} (h : step s = .fault r) :
    core.run (k + 1) s = .fault r := by
  simp only [Host.Core.run]
  rw [Host.Check.core_step, h]

theorem run_succ_of_refused {k : Nat} {s : State} {r : Refusal} (h : step s = .refused r) :
    core.run (k + 1) s = .refused r := by
  simp only [Host.Core.run]
  rw [Host.Check.core_step, h]

theorem run_forgetMode (k : Nat) (m : Bit) (s : State) :
    mapNext forgetMode (core.run k (setCrcMode m s)) = mapNext forgetMode (core.run k s) := by
  induction k generalizing m s with
  | zero => rfl
  | succ k ih =>
    obtain ⟨m', hstep⟩ := step_setCrcMode m s
    cases hs : step s with
    | next t =>
      rw [hs] at hstep
      rw [run_succ_of_next hs, run_succ_of_next hstep, ih]
    | fault r =>
      rw [hs] at hstep
      rw [run_succ_of_fault hs, run_succ_of_fault hstep]
    | refused r =>
      rw [hs] at hstep
      rw [run_succ_of_refused hs, run_succ_of_refused hstep]

/-- Settles O45: step by step, the two runs stay equal but for the flag. -/
theorem strategyFlagChangesNothingElse : Obligations.StrategyFlagChangesNothingElse := by
  unfold Obligations.StrategyFlagChangesNothingElse
  exact fun k s m => run_forgetMode k m s

end Sys2Proof.Machine
end

section
/-! PROOFS. Family other, sequences: the CRC pseudo-instructions, two completions in a row, and the buffer that is not active. -/

namespace Sys2Proof.Machine

theorem performAll_append_eq_next {l m : List Instr} {s t : State} :
    performAll (l ++ m) s = .next t ↔ ∃ u, performAll l s = .next u ∧ performAll m u = .next t := by
  induction l generalizing s with
  | nil => simp
  | cons i l ih =>
    simp only [List.cons_append, performAll_cons_eq_next, ih]
    exact ⟨fun ⟨v, hv, u, hu, ht⟩ => ⟨u, ⟨v, hv, hu⟩, ht⟩, fun ⟨u, ⟨v, hv, hu⟩, ht⟩ => ⟨v, hv, u, hu, ht⟩⟩

theorem performAll_singleton (i : Instr) (s : State) : performAll [i] s = exec i s := by
  cases h : exec i s <;> simp [performAll, h]

/-! ## The CRC pseudo-instructions (30_encoding.md rules R85 to R87) -/

theorem crc16Commands_succ (n : Nat) : crc16Commands (n + 1) = crc16Commands n ++ [.crcm (BitVec.ofNat 8 n)] := by
  simp [crc16Commands, List.range_succ]

theorem performAll_crc16Commands (s : State) (bytes : List Byte) (hlen : bytes.length ≤ s.params.bufSize)
    (hsize : s.params.bufSize ≤ 256) (hcap : s.capBufWritten = true)
    (hbytes : ∀ j, j < bytes.length → readBuf s s.capBuf j = bytes[j]?) :
    performAll (crc16Commands bytes.length) s = .next { s with
      crc := crc16 bytes, crcWritten := true, responses := s.responses ++ List.replicate (bytes.length + 1) 0 } := by
  induction bytes using List.reverseRecOn with
  | nil => rfl
  | append_singleton bytes b ih =>
    rw [List.length_append, List.length_singleton] at hlen hbytes ⊢
    have hfront := ih (by omega) fun j hj => by
      rw [hbytes j (by omega), List.getElem?_append_left hj]
    have hidx : (BitVec.ofNat 8 bytes.length).toNat = bytes.length := by
      rw [BitVec.toNat_ofNat]; omega
    have hb : readBuf s s.capBuf bytes.length = some b := by
      rw [hbytes _ (by omega), List.getElem?_concat_length]
    rw [crc16Commands_succ, performAll_append_next hfront, performAll_singleton,
      exec_crcm_of_some (by rw [hidx]; exact hlen) (by rw [hidx]; exact hb)]
    simp [crc16_concat, hcap, List.replicate_succ']

/-- Settles O51: byte by byte, each `CRCM` takes the next byte of the buffer into the value so far. -/
theorem crc16ComputesTheCrcOfTheCapturedBytes : Obligations.Crc16ComputesTheCrcOfTheCapturedBytes := by
  unfold Obligations.Crc16ComputesTheCrcOfTheCapturedBytes
  exact fun s bytes hlen hwf hcap hbytes => performAll_crc16Commands s bytes hlen (bufSize_le_of_wf hwf) hcap hbytes

/-- Settles O52: after the `CRC16` of the body, `CRCK` compares the two bytes with its CRC. -/
theorem checkAnswersWhetherTheTrailingBytesAreTheCrc : Obligations.CheckAnswersWhetherTheTrailingBytesAreTheCrc := by
  unfold Obligations.CheckAnswersWhetherTheTrailingBytesAreTheCrc
  intro s body lo hi hlen hwf hcap hbytes
  have hsize := bufSize_le_of_wf hwf
  have hbody := performAll_crc16Commands s body (by omega) hsize hcap fun j hj => by
    rw [hbytes j (by omega), List.getElem?_append_left hj]
  have hidx : (BitVec.ofNat 8 body.length).toNat = body.length := by
    rw [BitVec.toNat_ofNat]; omega
  have hlo : readBuf s s.capBuf body.length = some lo := by
    rw [hbytes _ (by omega)]; simp
  have hhi : readBuf s s.capBuf (body.length + 1) = some hi := by
    rw [hbytes _ (by omega)]; simp
  rw [checkCommands, Nat.add_sub_cancel, performAll_append_next hbody, performAll_singleton,
    exec_crck_of_some (lo := lo) (hi := hi) (by rw [hidx]; exact hlen) (by rw [hidx]; exact hlo) (by rw [hidx]; exact hhi)]
  simp [append_eq_iff, hcap]

theorem performAll_crcb (s : State) (bytes : List Byte) (hcrc : s.crcWritten = true) :
    performAll (bytes.map .crcb) s = .next { s with
      crc := crcFrom s.crc bytes, responses := s.responses ++ List.replicate bytes.length 0 } := by
  induction bytes generalizing s with
  | nil => simp [crcFrom]
  | cons b bytes ih =>
    rw [List.map_cons, performAll_cons_next (exec_crcb b s), ih]
    · simp [crcFrom, hcrc, List.replicate_succ]
    · exact hcrc

/-- Settles O53: `CRCI` gives `crc` its initial value, each `CRCB` takes a byte, and `CRCR` answers the result. -/
theorem appendAnswersTheCrcOfTheGivenBytes : Obligations.AppendAnswersTheCrcOfTheGivenBytes := by
  unfold Obligations.AppendAnswersTheCrcOfTheGivenBytes
  intro s bytes
  have hstart : exec .crci s = .next { s with
      crc := crcInit, crcWritten := true, responses := s.responses ++ [0] } := rfl
  rw [appendCommands, List.cons_append, performAll_cons_next hstart, performAll_append_next (performAll_crcb _ bytes rfl),
    performAll_singleton, crcrAnswersTheRunningValue]
  simp [crc16, List.replicate_succ]

/-! ## Two completions in a row (41_sync_producer.md rule R124) -/

theorem completeFrame_eq (n : Half) (s : State) : completeFrame n s = { s with
    procSel := s.actSel, length := n, ready := 1, actSel := ~~~s.actSel, rxArms := s.rxArms ++ [~~~s.actSel] } := rfl

/-- What the commands between two completions keep of the state `c` that the first one left. -/
structure QueuedSince (c u : State) : Prop where
  ready : u.ready = c.ready
  actSel : u.actSel = c.actSel
  procSel : u.procSel = c.procSel
  rxArms : u.rxArms = c.rxArms
  params : u.params = c.params
  bytes : ∀ j, j < 256 → readBuf u (~~~c.actSel) j = readBuf c (~~~c.actSel) j

/-- No command but `CLRR` and a performed `RXC` touches the frame queued or the selectors. -/
theorem QueuedSince.exec {c u v : State} {i : Instr} (hu : QueuedSince c u) (hclrr : i ≠ .clrr)
    (hrxc : ∀ n, i = .rxc n → c.params.bufSize < n.toNat) (h : exec i u = .next v) : QueuedSince c v := by
  have hinactive : ~~~c.actSel ≠ u.actSel := by rw [hu.actSel]; exact bit_not_ne _
  have hbytes : ∀ j, j < 256 → readBuf v (~~~c.actSel) j = readBuf c (~~~c.actSel) j := fun j hj =>
    (exec_readBuf_inactive h hinactive hj).trans (hu.bytes j hj)
  by_cases hi : ∃ n, i = .rxc n
  · obtain ⟨n, rfl⟩ := hi
    have hn : u.params.bufSize < n.toNat := by rw [hu.params]; exact hrxc n rfl
    rw [exec_rxc_of_lt hn] at h
    cases h
    exact { hu with bytes := hbytes }
  · have hno : ∀ n, i ≠ .rxc n := fun n hn => hi ⟨n, hn⟩
    obtain ⟨hact, hproc, harms⟩ := exec_roles_eq h hno
    obtain ⟨hparams, _⟩ := exec_context_eq h
    exact ⟨(exec_ready_eq h hclrr hno).trans hu.ready, hact.trans hu.actSel, hproc.trans hu.procSel,
      harms.trans hu.rxArms, hparams.trans hu.params, hbytes⟩

theorem queuedSince_performAll {l : List Instr} {c u : State}
    (hl : ∀ i ∈ l, i ≠ .clrr ∧ ∀ n, i = .rxc n → c.params.bufSize < n.toNat) (h : performAll l c = .next u) :
    QueuedSince c u :=
  performAll_keeps (P := QueuedSince c) (fun i hi _ _ hu he => hu.exec (hl i hi).1 (hl i hi).2 he)
    ⟨rfl, rfl, rfl, rfl, rfl, fun _ _ => rfl⟩ h

/-- Settles O49: the commands between keep what the first completion left, and the second swaps the selectors back. -/
theorem overrunQueuesTheSecondFrame : Obligations.OverrunQueuesTheSecondFrame := by
  unfold Obligations.OverrunQueuesTheSecondFrame
  intro s l n1 n2 hsel h1 h2 hl
  have hfirst : exec (.rxc n1) s = .next (completeFrame n1 s) := exec_rxc_of_le h1
  refine ⟨fun u hu => ?_, fun hread => ?_, fun v hv => ?_⟩
  · have hq : QueuedSince (completeFrame n1 s) u :=
      queuedSince_performAll hl (by rwa [performAll_cons_next hfirst] at hu)
    have hsecond : exec (.rxc n2) u = .next (completeFrame n2 u) := exec_rxc_of_le (by rw [hq.params]; exact h2)
    refine ⟨hq.ready, hq.actSel, hq.procSel, ?_, fun j hj => ?_⟩
    · rw [performAll_append_next hu, performAll_singleton, hsecond, completeFrame_eq, hq.actSel, hq.rxArms]
      simp
    · have hbytes := hq.bytes j hj
      rwa [completeFrame_actSel, BitVec.not_not, readBuf_congr (completeFrame_mem n1 s)] at hbytes
  · rw [performAll_cons_next hfirst]
    exact performAll_eq_next_of_no_read hread _
  · rw [exec_rxc_of_le h2] at hv
    cases hv
    rw [performAll_cons_next hfirst, performAll_singleton, exec_rxc_of_le (s := completeFrame n1 s) h2]
    simp [completeFrame_eq]

/-! ## The buffer that is not active (70_reset_and_hazards.md rule R183) -/

theorem performAll_readBuf_inactive {l : List Instr} {s t : State} (hl : ∀ i ∈ l, ∀ n, i ≠ .rxc n)
    (h : performAll l s = .next t) {j : Nat} (hj : j < 256) :
    readBuf t (~~~s.actSel) j = readBuf s (~~~s.actSel) j := by
  have hkeep := performAll_keeps
    (P := fun u => u.actSel = s.actSel ∧ readBuf u (~~~s.actSel) j = readBuf s (~~~s.actSel) j)
    (fun i hi u v ⟨hact, hbyte⟩ he => by
      obtain ⟨hroles, _⟩ := exec_roles_eq he (hl i hi)
      have hinactive : ~~~s.actSel ≠ u.actSel := by rw [hact]; exact bit_not_ne _
      exact ⟨hroles.trans hact, (exec_readBuf_inactive he hinactive hj).trans hbyte⟩)
    ⟨rfl, rfl⟩ h
  exact hkeep.2

theorem performAll_readBuf_eq {l : List Instr} {s t : State} (hl : ∀ i ∈ l, ∀ idx data, i ≠ .rxw idx data)
    (h : performAll l s = .next t) (k : Bit) (j : Nat) : readBuf t k j = readBuf s k j :=
  performAll_keeps (P := fun u => readBuf u k j = readBuf s k j)
    (fun i hi _ _ hu he => (exec_readBuf_eq he (hl i hi) k j).trans hu) rfl h

/-- Settles O50: up to the `RXC` the buffer is not active, and after it nothing is written until the `RXW`. -/
theorem takenBufferIsStableUntilItIsRefilled : Obligations.TakenBufferIsStableUntilItIsRefilled := by
  unfold Obligations.TakenBufferIsStableUntilItIsRefilled
  intro l m s t hl hm h j hj
  obtain ⟨u, hu, ht⟩ := performAll_append_eq_next.mp h
  rw [performAll_readBuf_eq hm ht, performAll_readBuf_inactive hl hu hj]

end Sys2Proof.Machine
end

section
/-! PROOFS. Family other, the take: with `RXW` steps between its commands, and with one completion inside. -/

namespace Sys2Proof.Machine

/-! ## Commands that neither see nor write what `RXW` writes -/

/-- The state with other bytes and another P-port record, the two items that `RXW` can write. -/
def withReceived (m : Memory) (f : BitVec 2) (s : State) : State := { s with mem := m, pFault := f }

/-- The commands of a take, in the default order (42_sync_consumer.md rule R138). -/
def takeCommands : List Instr := [.tst, .capb, .capl, .clrr, .clrl]

theorem take_subset_takeCommands (o : TakeOrder) : .tst :: takeTail o ⊆ takeCommands := by
  have hall : ∀ a b : Bool, .tst :: takeTail ⟨a, b⟩ ⊆ takeCommands := by decide
  exact hall o.captureLengthFirst o.clearLengthFirst

/-- A command of a take does the same whatever `RXW` has written, and leaves it. -/
theorem exec_withReceived {i : Instr} (hi : i ∈ takeCommands) (m : Memory) (f : BitVec 2) (s : State) :
    ∃ t, exec i s = .next t ∧ t.actSel = s.actSel ∧ exec i (withReceived m f s) = .next (withReceived m f t) := by
  simp only [takeCommands, List.mem_cons, List.not_mem_nil, or_false] at hi
  obtain rfl | rfl | rfl | rfl | rfl := hi
  · exact ⟨_, rfl, rfl, rfl⟩
  · exact ⟨_, rfl, rfl, rfl⟩
  · exact ⟨_, rfl, rfl, rfl⟩
  · exact ⟨_, rfl, rfl, rfl⟩
  · exact ⟨_, rfl, rfl, rfl⟩

/-- `RXW` writes these two items alone, and no byte of the buffer that is not active. -/
theorem exec_rxw_withReceived (idx data : Byte) (m : Memory) (f : BitVec 2) (s : State) :
    ∃ m' f', exec (.rxw idx data) (withReceived m f s) = .next (withReceived m' f' s) ∧
      ∀ j, j < 256 → Memory.read m' (bufAddr (~~~s.actSel) j) = Memory.read m (bufAddr (~~~s.actSel) j) := by
  obtain ⟨_, e⟩ | ⟨_, e⟩ := execRxw_cases idx data (withReceived m f s)
  · refine ⟨_, f, e, fun j hj => Memory.read_write_other m data fun heq => ?_⟩
    exact bit_not_ne s.actSel (bufAddr_inj hj idx.isLt heq).1
  · exact ⟨m, _, e, fun _ _ => rfl⟩

/-- A take with `RXW` steps between its commands ends as the take alone does, but for what `RXW` writes. -/
theorem performAll_interleaved {l : List Instr} (hprod : ∀ i ∈ l, i.port = .producer → ∃ idx data, i = .rxw idx data)
    (htake : ∀ i ∈ l, i.port = .consumer → i ∈ takeCommands) {s t : State}
    (h : performAll (l.filter (fun i => i.port = .consumer)) s = .next t) (m : Memory) (f : BitVec 2) :
    ∃ m' f', performAll l (withReceived m f s) = .next (withReceived m' f' t) ∧
      ∀ j, j < 256 → Memory.read m' (bufAddr (~~~s.actSel) j) = Memory.read m (bufAddr (~~~s.actSel) j) := by
  induction l generalizing s m f with
  | nil =>
    cases h
    exact ⟨m, f, rfl, fun _ _ => rfl⟩
  | cons i l ih =>
    have hrest := @ih (fun j hj => hprod j (List.mem_cons_of_mem i hj)) (fun j hj => htake j (List.mem_cons_of_mem i hj))
    cases hp : i.port with
    | producer =>
      obtain ⟨idx, data, rfl⟩ := hprod i List.mem_cons_self hp
      rw [List.filter_cons_of_neg (by simp)] at h
      obtain ⟨m1, f1, hrxw, hbytes1⟩ := exec_rxw_withReceived idx data m f s
      obtain ⟨m2, f2, hl, hbytes2⟩ := hrest h m1 f1
      exact ⟨m2, f2, (performAll_cons_next hrxw).trans hl, fun j hj => (hbytes2 j hj).trans (hbytes1 j hj)⟩
    | consumer =>
      rw [List.filter_cons_of_pos (by simp [hp])] at h
      obtain ⟨u, hu, hact, hreceived⟩ := exec_withReceived (htake i List.mem_cons_self hp) m f s
      rw [performAll_cons_next hu] at h
      obtain ⟨m2, f2, hl, hbytes⟩ := hrest h m f
      exact ⟨m2, f2, (performAll_cons_next hreceived).trans hl, hact ▸ hbytes⟩

/-! ## 42_sync_consumer.md rule R140 -/

/-- The state that a take alone leaves, in any of its orders. -/
def taken (s : State) : State := { s with
  capBuf := s.procSel, capBufWritten := true, capLen := s.length, capLenWritten := true, ready := 0, length := 0
  responses := s.responses ++ [bitResponse s.ready, 0, 0, 0, 0] }

theorem performAll_take (o : TakeOrder) (s : State) : performAll (.tst :: takeTail o) s = .next (taken s) := by
  obtain ⟨capLenFirst, clearLenFirst⟩ := o
  cases capLenFirst <;> cases clearLenFirst <;>
    simp [takeTail, performAll, exec, execTst, execCapb, execCapl, execClrr, execClrl, respond, setCapBuf, setCapLen,
      clearReady, setLength, taken]

/-- Settles O46: the take alone leaves `taken s`, and the `RXW` steps write into the other buffer. -/
theorem undisturbedTakeCapturesTheQueuedFrame : Obligations.UndisturbedTakeCapturesTheQueuedFrame := by
  unfold Obligations.UndisturbedTakeCapturesTheQueuedFrame
  intro o l s hprod hfilter hready hsel
  have htake : ∀ i ∈ l, i.port = .consumer → i ∈ takeCommands := fun i hi hp =>
    take_subset_takeCommands o (hfilter ▸ List.mem_filter.mpr ⟨hi, by simp [hp]⟩)
  have halone : performAll (l.filter (fun i => i.port = .consumer)) s = .next (taken s) := by
    rw [hfilter]; exact performAll_take o s
  obtain ⟨m, f, hl, hbytes⟩ := performAll_interleaved hprod htake halone s.mem s.pFault
  have hrsp : bitResponse s.ready = 1 := by rw [hready]; rfl
  refine ⟨withReceived m f (taken s), hl, rfl, rfl, rfl, rfl, rfl, rfl, rfl, rfl, hsel, ?_, fun j hj => ?_⟩
  · simp [withReceived, taken, hrsp]
  · have hcap : (withReceived m f (taken s)).capBuf = ~~~s.actSel := hsel
    rw [hcap]
    exact hbytes j hj

/-! ## 42_sync_consumer.md rule R141 -/

/-- A completion between two sequences of commands. -/
theorem performAll_append_rxc {l m : List Instr} {s u t : State} {n : Half} (hl : performAll l s = .next u)
    (hn : n.toNat ≤ u.params.bufSize) (hm : performAll m (completeFrame n u) = .next t) :
    performAll (l ++ .rxc n :: m) s = .next t := by
  rw [performAll_append_next hl, performAll_cons_next (exec_rxc_of_le hn), hm]

/-- Settles O47: for each place of the completion, the commands before it, then those after it at the swapped selectors. -/
theorem disturbedTakeLosesOrMispairsAFrame : Obligations.DisturbedTakeLosesOrMispairsAFrame := by
  unfold Obligations.DisturbedTakeLosesOrMispairsAFrame
  intro s s2 _ hsel hsize ends
  refine ⟨?_, ?_, ?_, ?_, ?_, ?_⟩
  · exact ⟨_, performAll_append_rxc (l := [.tst]) rfl hsize rfl, by simp [hsel]⟩
  · exact ⟨_, performAll_append_rxc (l := [.tst, .capb]) rfl hsize rfl, by simp [hsel]⟩
  · exact ⟨_, performAll_append_rxc (l := [.tst, .capb, .capl]) rfl hsize rfl, by simp [hsel]⟩
  · exact ⟨_, performAll_append_rxc (l := [.tst, .capb, .capl, .clrr]) rfl hsize rfl, by simp [hsel]⟩
  · exact ⟨_, performAll_append_rxc (l := [.tst, .capl]) rfl hsize rfl, by simp [hsel]⟩
  · exact ⟨_, performAll_append_rxc (l := [.tst, .capb, .capl, .clrl]) rfl hsize rfl, by simp [hsel]⟩

end Sys2Proof.Machine
end
